-- ==== Sys2Proof/Word.lean ====
section
/-! DEFINITION. The word types of the links: a byte as it stands in a frame, and the 16-bit check of a frame (Table 11-1). -/

namespace Sys2Proof

/-- A byte of a frame on a link (Table 11-1). -/
abbrev Byte := BitVec 8

/-- The check field of a frame (Table 11-1). -/
abbrev Check16 := BitVec 16

end Sys2Proof
end

