-- ==== Sys2Proof/Syntax.lean ====
section
/-! DEFINITION. The commands of the FL-20: one constructor of Instr for each row of spec/opcode_table.json, with its operands. -/

namespace Sys2Proof

/-- The five conveyor zones (Table 2-1). -/
inductive Zone where
  | A | B | C | D | E
deriving DecidableEq, Repr

/-- The four zones whose counter follows an encoder (R32). -/
inductive LinearZone where
  | A | B | C | E
deriving DecidableEq, Repr

/-- A linear zone as a zone. -/
def LinearZone.zone : LinearZone → Zone
  | .A => .A
  | .B => .B
  | .C => .C
  | .E => .E

/-- The two eyes whose trailing edge starts no further event (R37). -/
inductive SorterEye where
  | eEye | endEye
deriving DecidableEq, Repr

/-- Grades, best first; W is waste (Table 0-3). -/
inductive Grade where
  | A | B | C | W
deriving DecidableEq, Repr

/-- The station roles, in the order ENROL lists them (R208). -/
inductive Role where
  | moulder | scanner | endmatcher | stacker | labeller
deriving DecidableEq, Repr

/-- Link 0 goes to the supervisor, links 1 to 6 to stations (chapter 11). -/
abbrev LinkNo := Fin 7

/-- Bay b of the manual is `BayNo` b - 1 (Table 0-3: bays 1..8). -/
abbrev BayNo := Fin 8

/-- One defect as the SCANNER posts it (Table 4-2), in pu. -/
structure Defect where
  start : Nat
  stop : Nat
  cls : Nat
  size : Nat
deriving DecidableEq, Repr

/-- The line geometry record (Table 2-6). `kicks` holds (D_kick, P_kick) for bays 1..8 in order. -/
structure Geometry where
  gAB : Nat
  wAB : Nat
  gBC : Nat
  wBC : Nat
  gCD : Nat
  wCD : Nat
  nTen : Nat
  nDis : Nat
  wDE : Nat
  gEX : Nat
  wEX : Nat
  lTol : Nat
  zRev : Nat
  dDeadline : Nat
  dSaw : Nat
  pSaw : Nat
  rSaw : Nat
  dFlap : Nat
  pFlap : Nat
  dSort : Nat
  kicks : List (Nat × Nat)
deriving DecidableEq, Repr

/-- A product profile: every field of Table 3-1 but state and reference count. The value table has one row per grade. -/
structure Profile where
  code : Nat
  species : Nat
  width : Nat
  trim : Nat
  kerf : Nat
  clearance : Nat
  classes : List Nat
  valuesA : List Nat
  valuesB : List Nat
  valuesC : List Nat
  bonus : Nat
  maxLen : Nat
deriving DecidableEq, Repr

/-- One entry of a grade table (Table 3-4). -/
structure GradeLimit where
  count : Nat
  size : Nat
deriving DecidableEq, Repr

/-- What MAPPOST carries (Table 4-2). -/
structure MapForm where
  tag : Nat
  length : Nat
  defects : List Defect
  overflow : Bool
deriving DecidableEq, Repr

/-- What ORDADM carries (R154, Table 8-1). The grade stands as its place in Table 0-3. -/
structure OrderForm where
  number : Nat
  species : Nat
  grade : Nat
  classes : List Nat
  target : Nat
  tolerance : Nat
  shortLength : Nat
  shortCap : Nat
  ordered : Nat
  priority : Nat
deriving DecidableEq, Repr

/-- What NTCSET carries (Table 11-6), in ms. -/
structure Settings where
  scrub : Nat
  delay : Nat
  hold : Nat
  saw : Nat
  flap : Nat
  dead : Nat
  kick : Nat
deriving DecidableEq, Repr

/-- The commands: one constructor per row of the table. A request carries the link it came on and its request number
(R202, R205); a step of the part's own names what it acts on. -/
inductive Instr where
  | powerOnReset
  | zoneForwardStep (zone : LinearZone)
  | zoneReverseStep (zone : LinearZone)
  | lugPulse (occupied : Bool)
  | aEyeLeadingEdge
  | aEyeTrailingEdge
  | bEyeLeadingEdge
  | bEyeTrailingEdge
  | cEyeLeadingEdge
  | cEyeTrailingEdge
  | eEyeLeadingEdge
  | endEyeLeadingEdge
  | eyeTrailingEdge (eye : SorterEye)
  | handoffExpiry (zone : Zone)
  | deadlineCompare (tag : Nat)
  | planCompletion
  | sawActionFiring
  | lastCutCompare
  | sawPulseEnd
  | wasteOpenTarget (target : Nat)
  | wasteShutTarget (target : Nat)
  | flapPulseEnd
  | deadTimeExpiry
  | sortCompare (tag : Nat)
  | kickFiring (bay : BayNo) (tag : Nat)
  | kickPulseEnd (bay : BayNo)
  | tenonerCompare (lug : Nat)
  | scrubRead
  | lineClearComplete
  | holdTimerExpiry (link : LinkNo)
  | cntntcDelayExpiry
  | cntntcCeilingExpiry
  | linkSignalUp (link : LinkNo)
  | linkSignalLoss (link : LinkNo)
  | frameReceived (link : LinkNo) (bytes : List Byte)
  | frameByteTimeout (link : LinkNo)
  | enrol (link : LinkNo) (number : Nat) (role : Nat) (serial : Nat) (tools : List Nat)
  | recrd (link : LinkNo) (number : Nat) (tag : Nat)
  | recret (link : LinkNo) (number : Nat) (tag : Nat)
  | errrd (link : LinkNo) (number : Nat)
  | geold (link : LinkNo) (number : Nat) (geometry : Geometry)
  | linclr (link : LinkNo) (number : Nat)
  | zonrd (link : LinkNo) (number : Nat) (zone : Nat) (list : Nat) (first : Nat)
  | ctxld (link : LinkNo) (number : Nat) (slot : Nat) (profile : Profile)
  | ctxsel (link : LinkNo) (number : Nat) (slot : Nat)
  | grdld (link : LinkNo) (number : Nat) (species : Nat) (limits : List GradeLimit)
  | lingo (link : LinkNo) (number : Nat)
  | linstp (link : LinkNo) (number : Nat)
  | mapnext (link : LinkNo) (number : Nat)
  | mappost (link : LinkNo) (number : Nat) (form : MapForm)
  | outcome (link : LinkNo) (number : Nat) (tag : Nat) (result : Nat)
  | ordadm (link : LinkNo) (number : Nat) (form : OrderForm)
  | ordamd (link : LinkNo) (number : Nat) (order : Nat) (ordered : Nat)
  | ordcan (link : LinkNo) (number : Nat) (order : Nat)
  | ordrem (link : LinkNo) (number : Nat) (order : Nat)
  | ordrd (link : LinkNo) (number : Nat) (which : Nat) (value : Nat)
  | bayhld (link : LinkNo) (number : Nat) (bay : Nat)
  | bayrel (link : LinkNo) (number : Nat) (bay : Nat)
  | baycls (link : LinkNo) (number : Nat) (bay : Nat)
  | lblrd (link : LinkNo) (number : Nat) (bay : Nat)
  | bdlret (link : LinkNo) (number : Nat) (bay : Nat) (order : Nat) (serial : Nat)
  | ntcset (link : LinkNo) (number : Nat) (settings : Settings)
  | cntrd (link : LinkNo) (number : Nat)
  | linkrst (link : LinkNo) (number : Nat) (target : Nat)
  | transmitFrameSent (link : LinkNo)
  | resetInputAsserted
deriving DecidableEq, Repr

/-- A request as it waits in a link's list (R205): one that a block will answer, or one the Link Interface itself answers
RANGE because its code is not listed or its payload has not the length of its fields (R212, checks 1 and 4). -/
inductive Waiting where
  | request (command : Instr)
  | unlisted (code : Nat) (number : Nat)
  | malformed (code : Nat) (number : Nat)
deriving DecidableEq, Repr

end Sys2Proof
end

