-- ==== Sys2Proof/WellFormed.lean ====
section
/-! DEFINITION. Which commands can be spelt: every field of a request fits the bytes R202 gives it, and a step of the part's own
names values its fields can hold. Whether a value is in the range its rule allows is the command's meaning, not a matter of form. -/

namespace Sys2Proof

/-- One byte (R202). -/
def fits8 (n : Nat) : Bool := decide (n < 256)
/-- Two bytes (R202). -/
def fits16 (n : Nat) : Bool := decide (n < 65536)
/-- Four bytes (R202). -/
def fits32 (n : Nat) : Bool := decide (n < 4294967296)
/-- A value of a linear zone counter (R32). -/
def fits24 (n : Nat) : Bool := decide (n < 16777216)

def Defect.wf (d : Defect) : Bool := fits16 d.start && fits16 d.stop && fits8 d.cls && fits16 d.size

def Geometry.wf (g : Geometry) : Bool :=
  [g.gAB, g.gBC, g.gCD, g.gEX, g.zRev, g.dDeadline, g.dSaw, g.dFlap, g.dSort].all fits32
    && [g.wAB, g.wBC, g.wCD, g.wEX, g.lTol, g.pSaw, g.rSaw, g.pFlap].all fits16
    && [g.nTen, g.nDis, g.wDE].all fits8
    && g.kicks.length == 8 && g.kicks.all (fun k => fits32 k.1 && fits16 k.2)

def Profile.wf (f : Profile) : Bool :=
  fits8 f.code && fits8 f.species && fits16 f.width && fits16 f.trim && fits8 f.kerf && fits16 f.clearance
    && fits8 f.classes.length && f.classes.all fits16
    && fits8 f.valuesA.length && f.valuesB.length == f.valuesA.length && f.valuesC.length == f.valuesA.length
    && f.valuesA.all fits16 && f.valuesB.all fits16 && f.valuesC.all fits16
    && fits16 f.bonus && fits16 f.maxLen

def OrderForm.wf (f : OrderForm) : Bool :=
  fits32 f.number && fits8 f.species && fits8 f.grade && fits8 f.classes.length && f.classes.all fits16
    && fits32 f.target && fits32 f.tolerance && fits16 f.shortLength && fits8 f.shortCap && fits16 f.ordered
    && fits8 f.priority

def MapForm.wf (f : MapForm) : Bool :=
  fits16 f.tag && fits16 f.length && fits8 f.defects.length && f.defects.all Defect.wf

def Settings.wf (t : Settings) : Bool :=
  fits8 t.scrub && fits8 t.delay && fits16 t.hold && fits8 t.saw && fits8 t.flap && fits8 t.dead && fits8 t.kick

/-- The command can be spelt (R202; the ranges of tags, positions and lugs of 00_scope 0.5). -/
def Instr.wf : Instr → Bool
  | .powerOnReset => true
  | .zoneForwardStep _ => true
  | .zoneReverseStep _ => true
  | .lugPulse _ => true
  | .aEyeLeadingEdge => true
  | .aEyeTrailingEdge => true
  | .bEyeLeadingEdge => true
  | .bEyeTrailingEdge => true
  | .cEyeLeadingEdge => true
  | .cEyeTrailingEdge => true
  | .eEyeLeadingEdge => true
  | .endEyeLeadingEdge => true
  | .eyeTrailingEdge _ => true
  | .handoffExpiry _ => true
  | .deadlineCompare tag => fits16 tag
  | .planCompletion => true
  | .sawActionFiring => true
  | .lastCutCompare => true
  | .sawPulseEnd => true
  | .wasteOpenTarget target => fits24 target
  | .wasteShutTarget target => fits24 target
  | .flapPulseEnd => true
  | .deadTimeExpiry => true
  | .sortCompare tag => fits16 tag
  | .kickFiring _ tag => fits16 tag
  | .kickPulseEnd _ => true
  | .tenonerCompare lug => fits16 lug
  | .scrubRead => true
  | .lineClearComplete => true
  | .holdTimerExpiry _ => true
  | .cntntcDelayExpiry => true
  | .cntntcCeilingExpiry => true
  | .linkSignalUp _ => true
  | .linkSignalLoss _ => true
  | .frameReceived _ _ => true
  | .frameByteTimeout _ => true
  | .enrol _ number role serial tools =>
    fits8 number && fits8 role && fits32 serial && fits8 tools.length && tools.all fits8
  | .recrd _ number tag => fits8 number && fits16 tag
  | .recret _ number tag => fits8 number && fits16 tag
  | .errrd _ number => fits8 number
  | .geold _ number geometry => fits8 number && geometry.wf
  | .linclr _ number => fits8 number
  | .zonrd _ number zone list first => fits8 number && fits8 zone && fits8 list && fits8 first
  | .ctxld _ number slot profile => fits8 number && fits8 slot && profile.wf
  | .ctxsel _ number slot => fits8 number && fits8 slot
  | .grdld _ number species limits =>
    fits8 number && fits8 species && limits.length == 48 && limits.all (fun l => fits8 l.count && fits8 l.size)
  | .lingo _ number => fits8 number
  | .linstp _ number => fits8 number
  | .mapnext _ number => fits8 number
  | .mappost _ number form => fits8 number && form.wf
  | .outcome _ number tag result => fits8 number && fits16 tag && fits8 result
  | .ordadm _ number form => fits8 number && form.wf
  | .ordamd _ number order ordered => fits8 number && fits32 order && fits16 ordered
  | .ordcan _ number order => fits8 number && fits32 order
  | .ordrem _ number order => fits8 number && fits32 order
  | .ordrd _ number which value => fits8 number && fits8 which && (if which = 0 then fits8 value else fits32 value)
  | .bayhld _ number bay => fits8 number && fits8 bay
  | .bayrel _ number bay => fits8 number && fits8 bay
  | .baycls _ number bay => fits8 number && fits8 bay
  | .lblrd _ number bay => fits8 number && fits8 bay
  | .bdlret _ number bay order serial => fits8 number && fits8 bay && fits32 order && fits16 serial
  | .ntcset _ number settings => fits8 number && settings.wf
  | .cntrd _ number => fits8 number
  | .linkrst _ number target => fits8 number && fits8 target
  | .transmitFrameSent _ => true
  | .resetInputAsserted => true

end Sys2Proof
end

