-- ==== Sys2Proof/Decode.lean ====
section
/-! DEFINITION. Reading commands from bits. No row of spec/opcode_table.json gives bits, so decodeTableWord answers none. What the
spec does give is the wire form of requests: the frame of Table 11-1, its check, the receiver of R203 and the field widths of R202.
The encoder after the decoder writes the same fields. -/

namespace Sys2Proof

/-- No row of the table gives bits: no word spells a command. -/
def decodeTableWord (_nbits _w : Nat) : Option Instr := none

/-! The check of a frame (Table 11-1). -/

/-- One bit of the CRC x^16 + x^12 + x^5 + 1, most significant bit first (Table 11-1). -/
def crcBit (c : Check16) : Check16 := if c.msb then (c <<< 1) ^^^ 0x1021#16 else c <<< 1

/-- One byte of the CRC (Table 11-1). -/
def crcByte (c : Check16) (b : Byte) : Check16 :=
  crcBit (crcBit (crcBit (crcBit (crcBit (crcBit (crcBit (crcBit (c ^^^ (b.setWidth 16 <<< 8)))))))))

/-- The check over a frame's bytes 1 to 4 + length: initial value 0xFFFF, no final inversion (Table 11-1). -/
def crc16 (bytes : List Byte) : Check16 := bytes.foldl crcByte 0xFFFF#16

/-- The whole frame of Table 11-1, high byte of the check first. -/
def frameBytes (kind code number : Nat) (payload : List Byte) : List Byte :=
  let body := [BitVec.ofNat 8 kind, BitVec.ofNat 8 code, BitVec.ofNat 8 number, BitVec.ofNat 8 payload.length] ++ payload
  let c := crc16 body
  0xD4#8 :: (body ++ [(c >>> 8).setWidth 8, c.setWidth 8])

/-! The receiver (R203). -/

/-- What the receiver makes of the bytes it holds. -/
inductive Reception where
  | searching
  | partly (held : List Byte)
  | bad (rest : List Byte)
  | whole (kind code number : Nat) (payload rest : List Byte)
deriving DecidableEq, Repr

/-- R203: bytes are ignored until a start marker; then four header bytes, the payload and two check bytes. After a bad check the
search goes on from the byte after the discarded frame's marker. -/
def receive (bytes : List Byte) : Reception :=
  match bytes.dropWhile (fun b => b != 0xD4#8) with
  | [] => .searching
  | marker :: rest =>
    match rest with
    | kind :: code :: number :: length :: more =>
      if more.length < length.toNat + 2 then .partly (marker :: rest)
      else
        let payload := more.take length.toNat
        let after := more.drop length.toNat
        if after.take 2 = (let c := crc16 (kind :: code :: number :: length :: payload)
                           [(c >>> 8).setWidth 8, c.setWidth 8]) then
          .whole kind.toNat code.toNat number.toNat payload (after.drop 2)
        else .bad rest
    | _ => .partly (marker :: rest)

/-! The fields of a request's payload (R202). -/

/-- One byte. -/
def get8 : List Byte → Option (Nat × List Byte)
  | a :: r => some (a.toNat, r)
  | [] => none

/-- Two bytes, high byte first (Table 11-1). -/
def get16 : List Byte → Option (Nat × List Byte)
  | a :: b :: r => some (a.toNat * 256 + b.toNat, r)
  | _ => none

/-- Four bytes, high byte first (Table 11-1). -/
def get32 : List Byte → Option (Nat × List Byte)
  | a :: b :: c :: d :: r => some (((a.toNat * 256 + b.toNat) * 256 + c.toNat) * 256 + d.toNat, r)
  | _ => none

/-- A flag: 1 set, 0 clear (R202). -/
def getFlag (bytes : List Byte) : Option (Bool × List Byte) :=
  match get8 bytes with
  | some (0, r) => some (false, r)
  | some (1, r) => some (true, r)
  | _ => none

/-- n entries of a list, one after the other (R202). -/
def getMany {α : Type} (get : List Byte → Option (α × List Byte)) : Nat → List Byte → Option (List α × List Byte)
  | 0, bytes => some ([], bytes)
  | n + 1, bytes => do
    let (x, r) ← get bytes
    let (xs, r) ← getMany get n r
    some (x :: xs, r)

/-- A list preceded by one byte giving the number of its entries (R202). -/
def getList {α : Type} (get : List Byte → Option (α × List Byte)) (bytes : List Byte) : Option (List α × List Byte) := do
  let (n, r) ← get8 bytes
  getMany get n r

/-- A defect entry of MAPPOST (Table 4-2). -/
def getDefect (bytes : List Byte) : Option (Defect × List Byte) := do
  let (start, r) ← get16 bytes
  let (stop, r) ← get16 r
  let (cls, r) ← get8 r
  let (size, r) ← get16 r
  some (⟨start, stop, cls, size⟩, r)

/-- MAPPOST (Table 4-2). -/
def getMapForm (bytes : List Byte) : Option (MapForm × List Byte) := do
  let (tag, r) ← get16 bytes
  let (length, r) ← get16 r
  let (defects, r) ← getList getDefect r
  let (overflow, r) ← getFlag r
  some (⟨tag, length, defects, overflow⟩, r)

/-- One bay's D_kick and P_kick (Table 2-6). -/
def getKick (bytes : List Byte) : Option ((Nat × Nat) × List Byte) := do
  let (d, r) ← get32 bytes
  let (p, r) ← get16 r
  some ((d, p), r)

/-- GEOLD: the fields of Table 2-6 in its order. DESIGN CHOICE, unsafe: D_kick and P_kick stand bay by bay, eight pairs with no count byte
before them (log entry 7). -/
def getGeometry (bytes : List Byte) : Option (Geometry × List Byte) := do
  let (gAB, r) ← get32 bytes
  let (wAB, r) ← get16 r
  let (gBC, r) ← get32 r
  let (wBC, r) ← get16 r
  let (gCD, r) ← get32 r
  let (wCD, r) ← get16 r
  let (nTen, r) ← get8 r
  let (nDis, r) ← get8 r
  let (wDE, r) ← get8 r
  let (gEX, r) ← get32 r
  let (wEX, r) ← get16 r
  let (lTol, r) ← get16 r
  let (zRev, r) ← get32 r
  let (dDeadline, r) ← get32 r
  let (dSaw, r) ← get32 r
  let (pSaw, r) ← get16 r
  let (rSaw, r) ← get16 r
  let (dFlap, r) ← get32 r
  let (pFlap, r) ← get16 r
  let (dSort, r) ← get32 r
  let (kicks, r) ← getMany getKick 8 r
  some (⟨gAB, wAB, gBC, wBC, gCD, wCD, nTen, nDis, wDE, gEX, wEX, lTol, zRev, dDeadline, dSaw, pSaw, rSaw, dFlap, pFlap,
    dSort, kicks⟩, r)

/-- CTXLD's profile: the fields of Table 3-1 in its order. DESIGN CHOICE, unsafe: the value table is one byte giving its column
count, then the row of grade A, of B, of C (log entry 7). -/
def getProfile (bytes : List Byte) : Option (Profile × List Byte) := do
  let (code, r) ← get8 bytes
  let (species, r) ← get8 r
  let (width, r) ← get16 r
  let (trim, r) ← get16 r
  let (kerf, r) ← get8 r
  let (clearance, r) ← get16 r
  let (classes, r) ← getList get16 r
  let (columns, r) ← get8 r
  let (valuesA, r) ← getMany get16 columns r
  let (valuesB, r) ← getMany get16 columns r
  let (valuesC, r) ← getMany get16 columns r
  let (bonus, r) ← get16 r
  let (maxLen, r) ← get16 r
  some (⟨code, species, width, trim, kerf, clearance, classes, valuesA, valuesB, valuesC, bonus, maxLen⟩, r)

/-- One entry of GRDLD's table (Table 3-4). DESIGN CHOICE, unsafe: the 48 entries stand by class, grades A, B, C within a class, with no
count byte before them (log entry 7). -/
def getLimit (bytes : List Byte) : Option (GradeLimit × List Byte) := do
  let (count, r) ← get8 bytes
  let (size, r) ← get8 r
  some (⟨count, size⟩, r)

/-- ORDADM: the fields of Table 8-1 that it sets, in its order (R154). DESIGN CHOICE, unsafe: the slot state, ACTIVE in every admission, has
no byte, and the tolerance is an area of four (log entry 7). -/
def getOrderForm (bytes : List Byte) : Option (OrderForm × List Byte) := do
  let (number, r) ← get32 bytes
  let (species, r) ← get8 r
  let (grade, r) ← get8 r
  let (classes, r) ← getList get16 r
  let (target, r) ← get32 r
  let (tolerance, r) ← get32 r
  let (shortLength, r) ← get16 r
  let (shortCap, r) ← get8 r
  let (ordered, r) ← get16 r
  let (priority, r) ← get8 r
  some (⟨number, species, grade, classes, target, tolerance, shortLength, shortCap, ordered, priority⟩, r)

/-- NTCSET: the settings of Table 11-6 in its order. -/
def getSettings (bytes : List Byte) : Option (Settings × List Byte) := do
  let (scrub, r) ← get8 bytes
  let (delay, r) ← get8 r
  let (hold, r) ← get16 r
  let (saw, r) ← get8 r
  let (flap, r) ← get8 r
  let (dead, r) ← get8 r
  let (kick, r) ← get8 r
  some (⟨scrub, delay, hold, saw, flap, dead, kick⟩, r)

/-- The fields of the request of a code (Table 11-1), or none where the payload is too short; `none` outside: code not listed. -/
def getRequest (link : LinkNo) (code number : Nat) (p : List Byte) : Option (Option (Instr × List Byte)) :=
  match code with
  | 0x01 => some do
    let (role, r) ← get8 p
    let (serial, r) ← get32 r
    let (tools, r) ← getList get8 r
    some (.enrol link number role serial tools, r)
  | 0x10 => some do
    let (tag, r) ← get16 p
    some (.recrd link number tag, r)
  | 0x11 => some do
    let (tag, r) ← get16 p
    some (.recret link number tag, r)
  | 0x12 => some (some (.errrd link number, p))
  | 0x18 => some do
    let (geometry, r) ← getGeometry p
    some (.geold link number geometry, r)
  | 0x19 => some (some (.linclr link number, p))
  | 0x1A => some do
    let (zone, r) ← get8 p
    let (list, r) ← get8 r
    let (first, r) ← get8 r
    some (.zonrd link number zone list first, r)
  | 0x20 => some do
    let (slot, r) ← get8 p
    let (profile, r) ← getProfile r
    some (.ctxld link number slot profile, r)
  | 0x21 => some do
    let (slot, r) ← get8 p
    some (.ctxsel link number slot, r)
  | 0x22 => some do
    let (species, r) ← get8 p
    let (limits, r) ← getMany getLimit 48 r
    some (.grdld link number species limits, r)
  | 0x23 => some (some (.lingo link number, p))
  | 0x24 => some (some (.linstp link number, p))
  | 0x28 => some (some (.mapnext link number, p))
  | 0x29 => some do
    let (form, r) ← getMapForm p
    some (.mappost link number form, r)
  | 0x30 => some do
    let (tag, r) ← get16 p
    let (result, r) ← get8 r
    some (.outcome link number tag result, r)
  | 0x38 => some do
    let (form, r) ← getOrderForm p
    some (.ordadm link number form, r)
  | 0x39 => some do
    let (order, r) ← get32 p
    let (ordered, r) ← get16 r
    some (.ordamd link number order ordered, r)
  | 0x3A => some do
    let (order, r) ← get32 p
    some (.ordcan link number order, r)
  | 0x3B => some do
    let (order, r) ← get32 p
    some (.ordrem link number order, r)
  | 0x3C => some do
    let (which, r) ← get8 p
    let (value, r) ← if which = 0 then get8 r else get32 r
    some (.ordrd link number which value, r)
  | 0x40 => some do
    let (bay, r) ← get8 p
    some (.bayhld link number bay, r)
  | 0x41 => some do
    let (bay, r) ← get8 p
    some (.bayrel link number bay, r)
  | 0x42 => some do
    let (bay, r) ← get8 p
    some (.baycls link number bay, r)
  | 0x48 => some do
    let (bay, r) ← get8 p
    some (.lblrd link number bay, r)
  | 0x49 => some do
    let (bay, r) ← get8 p
    let (order, r) ← get32 r
    let (serial, r) ← get16 r
    some (.bdlret link number bay order serial, r)
  | 0x50 => some do
    let (settings, r) ← getSettings p
    some (.ntcset link number settings, r)
  | 0x51 => some (some (.cntrd link number, p))
  | 0x52 => some do
    let (target, r) ← get8 p
    some (.linkrst link number target, r)
  | _ => none

/-- The request a REQUEST frame carries: every byte of the payload belongs to a field (R202; R212, checks 1 and 4). -/
def decodeRequest (link : LinkNo) (code number : Nat) (payload : List Byte) : Waiting :=
  match getRequest link code number payload with
  | none => .unlisted code number
  | some (some (i, [])) => .request i
  | some _ => .malformed code number

/-! The encoder: the same fields written (R202, Table 11-1). -/

def put8 (n : Nat) : List Byte := [BitVec.ofNat 8 n]
def put16 (n : Nat) : List Byte := [BitVec.ofNat 8 (n / 256), BitVec.ofNat 8 n]
def put32 (n : Nat) : List Byte :=
  [BitVec.ofNat 8 (n / 16777216), BitVec.ofNat 8 (n / 65536), BitVec.ofNat 8 (n / 256), BitVec.ofNat 8 n]
def putFlag (b : Bool) : List Byte := put8 (if b then 1 else 0)
def putMany {α : Type} (put : α → List Byte) (xs : List α) : List Byte := xs.flatMap put
def putList {α : Type} (put : α → List Byte) (xs : List α) : List Byte := put8 xs.length ++ putMany put xs

def putDefect (d : Defect) : List Byte := put16 d.start ++ put16 d.stop ++ put8 d.cls ++ put16 d.size
def putKick (k : Nat × Nat) : List Byte := put32 k.1 ++ put16 k.2

def putGeometry (g : Geometry) : List Byte :=
  put32 g.gAB ++ put16 g.wAB ++ put32 g.gBC ++ put16 g.wBC ++ put32 g.gCD ++ put16 g.wCD ++ put8 g.nTen ++ put8 g.nDis
    ++ put8 g.wDE ++ put32 g.gEX ++ put16 g.wEX ++ put16 g.lTol ++ put32 g.zRev ++ put32 g.dDeadline ++ put32 g.dSaw
    ++ put16 g.pSaw ++ put16 g.rSaw ++ put32 g.dFlap ++ put16 g.pFlap ++ put32 g.dSort ++ putMany putKick g.kicks

def putProfile (f : Profile) : List Byte :=
  put8 f.code ++ put8 f.species ++ put16 f.width ++ put16 f.trim ++ put8 f.kerf ++ put16 f.clearance
    ++ putList put16 f.classes ++ put8 f.valuesA.length ++ putMany put16 f.valuesA ++ putMany put16 f.valuesB
    ++ putMany put16 f.valuesC ++ put16 f.bonus ++ put16 f.maxLen

def putLimit (l : GradeLimit) : List Byte := put8 l.count ++ put8 l.size

def putOrderForm (f : OrderForm) : List Byte :=
  put32 f.number ++ put8 f.species ++ put8 f.grade ++ putList put16 f.classes ++ put32 f.target ++ put32 f.tolerance
    ++ put16 f.shortLength ++ put8 f.shortCap ++ put16 f.ordered ++ put8 f.priority

def putMapForm (f : MapForm) : List Byte :=
  put16 f.tag ++ put16 f.length ++ putList putDefect f.defects ++ putFlag f.overflow

def putSettings (t : Settings) : List Byte :=
  put8 t.scrub ++ put8 t.delay ++ put16 t.hold ++ put8 t.saw ++ put8 t.flap ++ put8 t.dead ++ put8 t.kick

/-- A request command, spelt: its link, code (Table 11-1), request number and payload. A step of the part's own is no request. -/
def requestForm : Instr → Option (LinkNo × Nat × Nat × List Byte)
  | .enrol l n role serial tools => some (l, 0x01, n, put8 role ++ put32 serial ++ putList put8 tools)
  | .recrd l n tag => some (l, 0x10, n, put16 tag)
  | .recret l n tag => some (l, 0x11, n, put16 tag)
  | .errrd l n => some (l, 0x12, n, [])
  | .geold l n g => some (l, 0x18, n, putGeometry g)
  | .linclr l n => some (l, 0x19, n, [])
  | .zonrd l n zone list first => some (l, 0x1A, n, put8 zone ++ put8 list ++ put8 first)
  | .ctxld l n slot f => some (l, 0x20, n, put8 slot ++ putProfile f)
  | .ctxsel l n slot => some (l, 0x21, n, put8 slot)
  | .grdld l n species limits => some (l, 0x22, n, put8 species ++ putMany putLimit limits)
  | .lingo l n => some (l, 0x23, n, [])
  | .linstp l n => some (l, 0x24, n, [])
  | .mapnext l n => some (l, 0x28, n, [])
  | .mappost l n f => some (l, 0x29, n, putMapForm f)
  | .outcome l n tag result => some (l, 0x30, n, put16 tag ++ put8 result)
  | .ordadm l n f => some (l, 0x38, n, putOrderForm f)
  | .ordamd l n order ordered => some (l, 0x39, n, put32 order ++ put16 ordered)
  | .ordcan l n order => some (l, 0x3A, n, put32 order)
  | .ordrem l n order => some (l, 0x3B, n, put32 order)
  | .ordrd l n which value => some (l, 0x3C, n, put8 which ++ (if which = 0 then put8 value else put32 value))
  | .bayhld l n bay => some (l, 0x40, n, put8 bay)
  | .bayrel l n bay => some (l, 0x41, n, put8 bay)
  | .baycls l n bay => some (l, 0x42, n, put8 bay)
  | .lblrd l n bay => some (l, 0x48, n, put8 bay)
  | .bdlret l n bay order serial => some (l, 0x49, n, put8 bay ++ put32 order ++ put16 serial)
  | .ntcset l n t => some (l, 0x50, n, putSettings t)
  | .cntrd l n => some (l, 0x51, n, [])
  | .linkrst l n target => some (l, 0x52, n, put8 target)
  | .powerOnReset => none
  | .zoneForwardStep _ => none
  | .zoneReverseStep _ => none
  | .lugPulse _ => none
  | .aEyeLeadingEdge => none
  | .aEyeTrailingEdge => none
  | .bEyeLeadingEdge => none
  | .bEyeTrailingEdge => none
  | .cEyeLeadingEdge => none
  | .cEyeTrailingEdge => none
  | .eEyeLeadingEdge => none
  | .endEyeLeadingEdge => none
  | .eyeTrailingEdge _ => none
  | .handoffExpiry _ => none
  | .deadlineCompare _ => none
  | .planCompletion => none
  | .sawActionFiring => none
  | .lastCutCompare => none
  | .sawPulseEnd => none
  | .wasteOpenTarget _ => none
  | .wasteShutTarget _ => none
  | .flapPulseEnd => none
  | .deadTimeExpiry => none
  | .sortCompare _ => none
  | .kickFiring _ _ => none
  | .kickPulseEnd _ => none
  | .tenonerCompare _ => none
  | .scrubRead => none
  | .lineClearComplete => none
  | .holdTimerExpiry _ => none
  | .cntntcDelayExpiry => none
  | .cntntcCeilingExpiry => none
  | .linkSignalUp _ => none
  | .linkSignalLoss _ => none
  | .frameReceived _ _ => none
  | .frameByteTimeout _ => none
  | .transmitFrameSent _ => none
  | .resetInputAsserted => none

/-- The bytes of the REQUEST frame that carries a request command (Table 11-1). -/
def encodeRequest (i : Instr) : Option (List Byte) :=
  (requestForm i).map fun (_, code, number, payload) => frameBytes 0x01 code number payload

end Sys2Proof
end

