-- ==== Sys2Proof/Config.lean ====
section
/-! DEFINITION. The figures that the manual fixes for every FL-20: capacities and limits of its collections. The manual leaves
no result of a command undefined, so no free value stands here. -/

namespace Sys2Proof.Config

/-- Largest value of a counter: each is 0..4,294,967,295 and saturates (R31, R59, R216). -/
def counterMax : Nat := 4294967295
/-- Capacity of the queues of zones A and B (R39). -/
def queueCapAB : Nat := 32
/-- Capacity of the queues of zones C, D and E (R39). -/
def queueCapCDE : Nat := 64
/-- Capacity of the cut list (R41). -/
def cutListCap : Nat := 32
/-- Capacity of the planner queue (R83). -/
def plannerCap : Nat := 32
/-- Capacity of the saw queue (Table 6-1). -/
def sawCap : Nat := 32
/-- Capacity of the waste interval list (Table 6-1). -/
def wasteCap : Nat := 64
/-- Capacity of each kick queue (Table 6-1). -/
def kickCap : Nat := 8
/-- Free slots that PERMIT asks for (R70). -/
def permitSlots : Nat := 64
/-- Requests a link's list holds (R205). -/
def requestCap : Nat := 8
/-- Frames a link's transmit list holds (R206). -/
def transmitCap : Nat := 64
/-- Waiting frames from which on a notice is not sent (R206). -/
def noticeLimit : Nat := 56
/-- Payload bytes a frame carries at most (Table 11-1). -/
def payloadMax : Nat := 255
/-- Entries a ZONRD reply carries at most (R58). -/
def zonrdMax : Nat := 32
/-- The part identity code that ANNC carries (R207). -/
def identity : Nat := 0x464C0014

end Sys2Proof.Config
end

