-- ==== Sys2Proof/Machine/State.lean ====
section
/-! DEFINITION. The state of the FL-20: one structure per block of 00_scope Table 0-1, and the queue of commands. Plain data. -/

namespace Sys2Proof.Machine

/-! Record Store (chapter 1). -/

/-- A slot number, 0..1023 (0.5.2). -/
abbrev SlotNo := Fin 1024
/-- A context slot number (R60). -/
abbrev CtxNo := Fin 4
/-- An order slot number (R152). -/
abbrev OrderNo := Fin 32

/-- Strip states (Table 1-2). -/
inductive StripState where
  | enteringA | inA | enteringB | scanning | mapped | planning | planned | rejecting | cutting
deriving DecidableEq, Repr

/-- Reject causes (Table 1-4). -/
inductive RejectCause where
  | suspectLength | untracked | unsure | noMap | mapOverflow | overload | noSlots | latePlan | empty | schedule
deriving DecidableEq, Repr

/-- Strip retire causes (Table 1-3). -/
inductive StripRetire where
  | cutDone | rejected | lost | removed | cleared | damaged
deriving DecidableEq, Repr

/-- Piece states (Table 1-5b). -/
inductive PieceState where
  | planned | beltC | lug | beltE | assigned | unsorted
deriving DecidableEq, Repr

/-- Piece retire causes (Table 1-6). -/
inductive PieceRetire where
  | landed | endBin | lost | removed | cleared | damaged | condemned | discarded
deriving DecidableEq, Repr

/-- The defect map of a strip record (Table 1-1). -/
structure DefectMap where
  defects : List Defect
  overflow : Bool
deriving DecidableEq, Repr

/-- One place of a plan as the strip record keeps it (R113); no tag for a void place (R20). -/
structure PlanEntry where
  tag : Option Nat
  start : Nat
  cls : Nat
  foot : Nat
deriving DecidableEq, Repr

/-- The plan in a strip record (R113). -/
structure StripPlan where
  value : Nat
  places : List PlanEntry
deriving DecidableEq, Repr

/-- A strip record (Table 1-1). -/
structure Strip where
  tag : Nat
  ctx : CtxNo
  species : Nat
  state : StripState
  suspect : Bool
  untracked : Bool
  unsure : Bool
  leadA : Option Nat
  lenA : Option Nat
  leadB : Option Nat
  lenB : Option Nat
  deadline : Option Nat
  map : Option DefectMap
  reject : Option RejectCause
  plan : Option StripPlan
  leadC : Option Nat
  pendingSaw : Nat
deriving DecidableEq, Repr

/-- A piece record (Table 1-5a). -/
structure Piece where
  tag : Nat
  parent : Nat
  index : Nat
  ctx : CtxNo
  species : Nat
  cls : Nat
  len : Nat
  foot : Nat
  grade : Grade
  value : Nat
  area : Nat
  start : Nat
  lead : Option Nat
  lug : Option Nat
  reserved : Option OrderNo
  bay : Option BayNo
  serial : Option Nat
  unsure : Bool
  downgraded : Bool
  state : PieceState
deriving DecidableEq, Repr

/-- What a slot holds (R1): its kind and its record. -/
inductive Contents where
  | nothing
  | strip (r : Strip)
  | piece (r : Piece)
deriving DecidableEq, Repr

/-- What a read finds of the main contents against the check code (R14, Table 1-8). -/
inductive Check where
  | good | single | double
deriving DecidableEq, Repr

/-- The shadow of a strip (Table 1-7): `loc` is current zone and lead position. -/
structure StripShadow where
  state : StripState
  ctx : CtxNo
  loc : Option (Zone × Nat)
  length : Option Nat
deriving DecidableEq, Repr

/-- The shadow of a piece (Table 1-7). -/
structure PieceShadow where
  state : PieceState
  ctx : CtxNo
  loc : Option (Zone × Nat)
  foot : Nat
  reserved : Option OrderNo
  area : Nat
  bay : Option BayNo
  parent : Nat
deriving DecidableEq, Repr

/-- A shadow entry's kind and fields (Table 1-7). -/
inductive ShadowBody where
  | nothing
  | strip (r : StripShadow)
  | piece (r : PieceShadow)
deriving DecidableEq, Repr

/-- A shadow entry (Table 1-7). -/
structure Shadow where
  gen : Nat
  body : ShadowBody
deriving DecidableEq, Repr

/-- A slot: main contents under the check code, and the shadow entry under its parity (R1, R14). -/
structure Slot where
  gen : Nat
  contents : Contents
  check : Check
  shadow : Shadow
  parityBad : Bool
deriving DecidableEq, Repr

/-- A slot after power-on (R1). -/
def Slot.clean : Slot := ⟨0, .nothing, .good, ⟨0, .nothing⟩, false⟩

/-- The block that made a read (R24). -/
inductive Reader where
  | rst | ztr | cpl | acu | ort | bas | lif
deriving DecidableEq, Repr

/-- Kinds of the error capture (R24). -/
inductive CaptureKind where
  | corrected | damaged | shadow | double
deriving DecidableEq, Repr

/-- The error capture when full (R24). -/
structure Capture where
  kind : CaptureKind
  slot : SlotNo
  tag : Nat
  reader : Reader
deriving DecidableEq, Repr

/-- The Record Store (chapter 1). -/
structure Store where
  slots : Vector Slot 1024
  free : List SlotNo
  corrected : Nat
  damaged : Nat
  shadowed : Nat
  stripRetired : Vector Nat 6
  pieceRetired : Vector Nat 8
  scrubPtr : SlotNo
  scrubInterval : Nat
  capture : Option Capture
  overrun : Bool
deriving DecidableEq, Repr

/-! Zone Tracker (chapters 2 and 7). -/

/-- Tenoner status of a lug table entry (Table 7-1); an entry of another zone has status none. -/
inductive TenStatus where
  | armed | sent | unsent | none
deriving DecidableEq, Repr

/-- A zone queue entry (R39, R44, R137): expected arrival and window half-width are fixed when it is made. -/
structure Entry where
  tag : Option Nat
  lead : Nat
  expect : Nat
  half : Nat
  status : TenStatus
deriving DecidableEq, Repr

/-- A zone: counter (R32, R33), high-water mark (R34; none in zone D) and queue (R39). -/
structure ZoneRec where
  counter : Nat
  mark : Nat
  queue : List Entry
deriving DecidableEq, Repr

/-- An eye (R37). -/
structure Eye where
  blocked : Bool
  lead : Nat
  trail : Nat
deriving DecidableEq, Repr

/-- The eye item of the A-eye or the B-eye (R38). -/
inductive EyeItem where
  | none
  | untagged
  | tag (t : Nat)
deriving DecidableEq, Repr

/-- The load sensor's last sample and the lug number of it (R138, R150). -/
structure LoadSensor where
  occupied : Bool
  lug : Nat
deriving DecidableEq, Repr

/-- An entry of the cut list (R41). -/
structure CutEntry where
  tag : Nat
  lead : Nat
deriving DecidableEq, Repr

/-- Causes of LINE FAULT (R56). -/
inductive FaultCause where
  | overflow (zone : Zone)
  | doubleDamage
deriving DecidableEq, Repr

/-- What a compare is for: the tracker's compares (R36), the saw recovery compare (R121), and the targets of the Action Unit's
actions (R116), each named by what it acts on. -/
inductive Event where
  | expiry (zone : Zone)
  | deadline (tag : Nat)
  | sort (tag : Nat)
  | tenoner (lug : Nat)
  | lastCut
  | saw (target : Nat)
  | wasteOpen (target : Nat)
  | wasteShut (target : Nat)
  | kick (bay : BayNo) (tag : Nat)
deriving DecidableEq, Repr

/-- An armed compare (R36). -/
structure Compare where
  event : Event
  target : Nat
deriving DecidableEq, Repr

/-- The Zone Tracker. `due` and `atOnce` are the model's own fields (log entry 2): compares that a counter step has taken and
whose own step has not been run, and compares taken at once when armed, which are carried out before the step ends (R36). -/
structure Tracker where
  zoneA : ZoneRec
  zoneB : ZoneRec
  zoneC : ZoneRec
  zoneD : ZoneRec
  zoneE : ZoneRec
  cutList : List CutEntry
  eyeA : Eye
  eyeB : Eye
  eyeC : Eye
  eyeE : Eye
  eyeX : Eye
  load : LoadSensor
  itemA : EyeItem
  itemB : EyeItem
  geo : Geometry
  geoValid : Bool
  fault : Option FaultCause
  untracked : Nat
  stray : Nat
  compares : List Compare
  due : List Event
  atOnce : List Event
deriving DecidableEq, Repr

/-! Cut Planner (chapters 3, 4 and 5). -/

/-- A context slot: EMPTY or LOADED with a profile, and its reference count (Table 3-1, R60). -/
structure Context where
  profile : Option Profile
  refs : Nat
deriving DecidableEq, Repr

/-- The snapshot a plan is computed on (Table 5-1). -/
structure Snapshot where
  length : Nat
  defects : List Defect
  profile : Profile
  limits : List GradeLimit
  recovery : Nat
  bonus : List (List Nat)
deriving DecidableEq, Repr

/-- The plan in progress (4.5). -/
structure PlanJob where
  tag : Nat
  snapshot : Snapshot
  discard : Bool
deriving DecidableEq, Repr

/-- The conditions of PERMIT, in the order of Table 3-5. -/
inductive PermitCond where
  | run | fault | geometry | context | tooling | moulder | scanner | endmatcher | slots
deriving DecidableEq, Repr

/-- The Cut Planner. -/
structure Planner where
  contexts : Vector Context 4
  active : CtxNo
  grades : Vector (List GradeLimit) 8
  queue : List Nat
  job : Option PlanJob
  run : Bool
  runnable : Bool
  permit : Bool
  report : List PermitCond
deriving DecidableEq, Repr

/-! Action Unit (chapter 6). -/

/-- A saw queue entry (Table 6-1). -/
structure SawEntry where
  target : Nat
  tag : Nat
deriving DecidableEq, Repr

/-- Waste interval entry states (Table 6-3). DEDUCED, unsafe: `waitingShut` is no row of the table; it is WAITING with a shut target that
has been taken already, which R126 leaves of a join after reverse motion (log entry 23). -/
inductive WasteState where
  | waiting | openDue | bothDue | opened | shutDue | waitingShut
deriving DecidableEq, Repr

/-- A waste interval list entry (Table 6-1); no shut target while it is open-ended (R123). -/
structure WasteEntry where
  openT : Nat
  shutT : Option Nat
  state : WasteState
deriving DecidableEq, Repr

/-- A kick queue entry (Table 6-1). -/
structure KickEntry where
  target : Nat
  tag : Nat
deriving DecidableEq, Repr

/-- The two coils of the waste flap (R129). -/
inductive Coil where
  | opening | shutting
deriving DecidableEq, Repr

/-- The Action Unit. `coil` is none while the pair is OFF, else the coil on and its pulse's width; `dead` is the dead time that
runs since the last pulse's end; a pulse output holds the width of the pulse on it. -/
structure Actions where
  saw : List SawEntry
  waste : List WasteEntry
  mark : Option Nat
  coil : Option (Coil × Nat)
  lastCoil : Option Coil
  dead : Option Nat
  flapOpen : Bool
  kicks : Vector (List KickEntry) 8
  sawPulse : Option Nat
  kickPulse : Vector (Option Nat) 8
  lastCut : Option Nat
  sawWidth : Nat
  flapWidth : Nat
  deadTime : Nat
  kickWidth : Nat
deriving DecidableEq, Repr

/-! Order Table (chapter 8). -/

/-- Order states (Table 8-2); an EMPTY slot holds no order. -/
inductive OrderState where
  | active | cancelling | complete | cancelled
deriving DecidableEq, Repr

/-- An order record (Table 8-1). -/
structure Order where
  state : OrderState
  number : Nat
  species : Nat
  grade : Grade
  classes : List Nat
  target : Nat
  tolerance : Nat
  shortLength : Nat
  shortCap : Nat
  ordered : Nat
  opened : Nat
  retired : Nat
  priority : Nat
  seq : Nat
  reservedArea : Nat
  transitArea : Nat
  landedArea : Nat
  retiredArea : Nat
deriving DecidableEq, Repr

/-- The Order Table: 32 slots and the admission sequence counter (R152, R155). -/
structure Orders where
  slots : Vector (Option Order) 32
  seq : Nat
deriving DecidableEq, Repr

/-! Bundle Assembler (chapters 9 and 10). -/

/-- A label record (Table 10-1). `digits` is the identification code, 13 decimal digits (R194). -/
structure Label where
  bay : Nat
  order : Nat
  serial : Nat
  species : Nat
  grade : Grade
  count : Nat
  area : Nat
  classes : List (Nat × Nat)
  short : Bool
  inspect : Bool
  digits : List Nat
deriving DecidableEq, Repr

/-- A bundle record (Table 9-2). -/
structure Bundle where
  slot : OrderNo
  order : Nat
  serial : Nat
  landed : Nat
  transit : Nat
  shortLanded : Nat
  shortTransit : Nat
  count : Nat
  classes : List (Nat × Nat)
  short : Bool
  inspect : Bool
  label : Option Label
deriving DecidableEq, Repr

/-- Bay states (Table 9-3). -/
inductive BayState where
  | idle | opened | closing | full
deriving DecidableEq, Repr

/-- A bay record (Table 9-1). -/
structure Bay where
  state : BayState
  supHold : Bool
  staHold : Bool
  bundle : Option Bundle
deriving DecidableEq, Repr

/-! Link Interface (chapter 11). -/

/-- One field of a reply's or notice's payload, by its width (R202). -/
inductive Item where
  | u8 (n : Nat)
  | u16 (n : Nat)
  | u32 (n : Nat)
deriving DecidableEq, Repr

/-- The kinds of frame the part sends (Table 11-1). -/
inductive FrameKind where
  | reply | notice
deriving DecidableEq, Repr

/-- A frame in a transmit list (R206): a reply's first field is its status. -/
structure Frame where
  kind : FrameKind
  code : Nat
  number : Nat
  fields : List Item
deriving DecidableEq, Repr

/-- Whom a notice is addressed to (R213). -/
inductive Dest where
  | supervisor
  | role (r : Role)
deriving DecidableEq, Repr

/-- A notice as its block asks for it (R213). -/
structure Notice where
  dest : Dest
  code : Nat
  fields : List Item
deriving DecidableEq, Repr

/-- Reply statuses, in the order of their codes (Table 11-1). -/
inductive Status where
  | done | stale | notFound | damaged | late | wrongState | range | inUse | full | wrongRole | notEnrolled | duplicate
  | mismatch | overload
deriving DecidableEq, Repr

/-- Link states (Table 11-2; link 0: DOWN, UP, INCOMPATIBLE, R211). -/
inductive LinkState where
  | down | waiting | enrolled | holding | incompatible | up
deriving DecidableEq, Repr

/-- A link record (chapter 11). -/
structure LinkRec where
  state : LinkState
  signal : Bool
  role : Option Role
  serial : Nat
  tools : List Nat
  holdTimer : Option Nat
  rx : List Byte
  requests : List Waiting
  transmit : List Frame
  frameErrors : Nat
  drops : Nat
deriving DecidableEq, Repr

/-- CNTNTC coalescing in PENDING (R214): unreported counts and the lengths of the two running timers. -/
structure Coalesce where
  landed : Nat
  rejected : Nat
  full : Nat
  delayTimer : Nat
  ceilingTimer : Nat
deriving DecidableEq, Repr

/-- A LINE CLEAR that waits for its completion (R57, R213): whether it is automatic, the request number of the LINCLR whose reply
is owed, PERMIT and LINE FAULT as they stood before it, and the BDLRDY notices owed (R197). -/
structure Clear where
  auto : Bool
  reply : Option Nat
  permit : Bool
  fault : Option FaultCause
  ready : List Notice
deriving DecidableEq, Repr

/-- The Link Interface. `deferred` is the model's own field (log entry 6): the notices of the request in service, held until its
reply has been composed. -/
structure Links where
  link : Vector LinkRec 7
  delay : Nat
  hold : Nat
  coalesce : Option Coalesce
  clear : Option Clear
  deferred : Option (List Notice)
deriving DecidableEq, Repr

/-! The part and its command queue. -/

/-- The FL-20: its seven blocks, and whether its power-on reset input is asserted (R217). -/
structure Part where
  inReset : Bool
  rst : Store
  ztr : Tracker
  cpl : Planner
  acu : Actions
  ort : Orders
  bas : Vector Bay 8
  lif : Links
deriving DecidableEq, Repr

/-- The state: the part, and the commands that wait, first in, first out. -/
structure State where
  part : Part
  pending : List Instr
deriving DecidableEq, Repr

/-- The spec gives the part no stop, so no command ends in a fault: there is no constructor (safe). -/
inductive Fault where
deriving DecidableEq, Repr

/-- Why a command has no meaning here. -/
inductive Refusal where
  /-- Raised by exec's arm of a command whose meaning is not written; safe. No arm of this model raises it. -/
  | notModelled (mnemonic : String)
deriving DecidableEq, Repr

/-! Power-on values. -/

/-- Every field 0 (R55). -/
def geometryZero : Geometry :=
  ⟨0, 0, 0, 0, 0, 0, 0, 0, 0, 0, 0, 0, 0, 0, 0, 0, 0, 0, 0, 0, List.replicate 8 (0, 0)⟩

def zoneReset : ZoneRec := ⟨0, 0, []⟩
def eyeReset : Eye := ⟨false, 0, 0⟩

/-- R1, R2, R23, R24, R31. -/
def storeReset : Store where
  slots := Vector.replicate 1024 Slot.clean
  free := (List.range 1024).map (Fin.ofNat 1024)
  corrected := 0
  damaged := 0
  shadowed := 0
  stripRetired := Vector.replicate 6 0
  pieceRetired := Vector.replicate 8 0
  scrubPtr := 0
  scrubInterval := 10
  capture := none
  overrun := false

/-- Table 2-8, R151. -/
def trackerReset : Tracker where
  zoneA := zoneReset
  zoneB := zoneReset
  zoneC := zoneReset
  zoneD := zoneReset
  zoneE := zoneReset
  cutList := []
  eyeA := eyeReset
  eyeB := eyeReset
  eyeC := eyeReset
  eyeE := eyeReset
  eyeX := eyeReset
  load := ⟨false, 0⟩
  itemA := .none
  itemB := .none
  geo := geometryZero
  geoValid := false
  fault := none
  untracked := 0
  stray := 0
  compares := []
  due := []
  atOnce := []

/-- Table 3-7, R72, R93. -/
def plannerReset : Planner where
  contexts := Vector.replicate 4 ⟨none, 0⟩
  active := 0
  grades := Vector.replicate 8 (List.replicate 48 ⟨0, 0⟩)
  queue := []
  job := none
  run := false
  runnable := false
  permit := false
  report := [.run, .geometry, .context, .moulder, .scanner, .endmatcher]

/-- R129, R135, Table 6-4. -/
def actionsReset : Actions where
  saw := []
  waste := []
  mark := none
  coil := none
  lastCoil := none
  dead := none
  flapOpen := false
  kicks := Vector.replicate 8 []
  sawPulse := none
  kickPulse := Vector.replicate 8 none
  lastCut := none
  sawWidth := 20
  flapWidth := 30
  deadTime := 10
  kickWidth := 40

/-- R173. -/
def ordersReset : Orders := ⟨Vector.replicate 32 none, 0⟩

/-- R174. -/
def bayReset : Bay := ⟨.idle, false, false, none⟩

/-- R217; DESIGN CHOICE, unsafe: no link has signal (log entry 4). -/
def linkReset0 : LinkRec := ⟨.down, false, none, 0, [], none, [], [], [], 0, 0⟩

/-- R214, R217, Table 11-6. -/
def linksReset : Links := ⟨Vector.replicate 7 linkReset0, 20, 2000, none, none, none⟩

/-- The part after power-on. -/
def Part.reset : Part where
  inReset := false
  rst := storeReset
  ztr := trackerReset
  cpl := plannerReset
  acu := actionsReset
  ort := ordersReset
  bas := Vector.replicate 8 bayReset
  lif := linksReset

/-- The state right after reset: every block at its power-on state, no command waiting. -/
def State.reset : State := ⟨Part.reset, []⟩

end Sys2Proof.Machine
end

