-- ==== Sys2Proof/Machine/Ops.lean ====
section
/-! DEFINITION. The named operations that every command shares: positions and compares, counters, the links and their notices,
runnability and PERMIT. -/

namespace Sys2Proof.Machine

open Sys2Proof

/-! Counters and positions (0.5.1, R32, R33). -/

/-- A saturating counter raised by one (R31). -/
def bump (n : Nat) : Nat := if n < Config.counterMax then n + 1 else n

/-- The modulus of a zone's counter (Table 2-1). -/
def modulus : Zone → Nat
  | .A => 16777216
  | .B => 16777216
  | .C => 16777216
  | .D => 65536
  | .E => 16777216

/-- Half the modulus: from here on a target is behind (0.5.1). -/
def halfModulus (z : Zone) : Nat := modulus z / 2

/-- A sum as a value of the zone's counter. -/
def wrap (z : Zone) (n : Nat) : Nat := n % modulus z

/-- a - b as a value of the zone's counter. -/
def minus (z : Zone) (a b : Nat) : Nat := (a + (modulus z - b % modulus z)) % modulus z

/-- The ahead distance of target t at counter value p (0.5.1). -/
def ahead (z : Zone) (t p : Nat) : Nat := minus z t p

/-- The target is behind (0.5.1). -/
def behind (z : Zone) (t p : Nat) : Bool := decide (halfModulus z ≤ ahead z t p)

/-- The target is strictly ahead (R36). -/
def strictlyAhead (z : Zone) (t p : Nat) : Bool := decide (1 ≤ ahead z t p) && decide (ahead z t p < halfModulus z)

/-- p precedes q in forward order (R32). -/
def precedes (z : Zone) (p q : Nat) : Bool := strictlyAhead z q p

/-- An entry at its place in forward order of position: behind every entry that it does not precede (R32). -/
def insertForward {α : Type} (z : Zone) (pos : α → Nat) (e : α) (es : List α) : List α :=
  es.takeWhile (fun x => !precedes z (pos e) (pos x)) ++ e :: es.dropWhile (fun x => !precedes z (pos e) (pos x))

/-- Position p lies within the window [e - w, e + w] (R32). -/
def inWindow (z : Zone) (p e w : Nat) : Bool := decide (minus z p (minus z e w) ≤ 2 * w)

/-! Access to the parts of a record. -/

/-- A zone's record. -/
def Part.zone (p : Part) : Zone → ZoneRec
  | .A => p.ztr.zoneA
  | .B => p.ztr.zoneB
  | .C => p.ztr.zoneC
  | .D => p.ztr.zoneD
  | .E => p.ztr.zoneE

/-- A zone's record replaced. -/
def Part.setZone (p : Part) (z : Zone) (r : ZoneRec) : Part :=
  match z with
  | .A => { p with ztr.zoneA := r }
  | .B => { p with ztr.zoneB := r }
  | .C => { p with ztr.zoneC := r }
  | .D => { p with ztr.zoneD := r }
  | .E => { p with ztr.zoneE := r }

/-- A zone's counter. -/
def Part.counter (p : Part) (z : Zone) : Nat := (p.zone z).counter

/-- A zone's queue. -/
def Part.queue (p : Part) (z : Zone) : List Entry := (p.zone z).queue

/-- A zone's queue replaced. -/
def Part.setQueue (p : Part) (z : Zone) (q : List Entry) : Part := p.setZone z { p.zone z with queue := q }

/-- A record slot. -/
def Part.slot (p : Part) (i : SlotNo) : Slot := p.rst.slots[i]

/-- A record slot replaced. -/
def Part.setSlot (p : Part) (i : SlotNo) (s : Slot) : Part := { p with rst.slots := p.rst.slots.set i s }

/-- A context slot. -/
def Part.ctx (p : Part) (c : CtxNo) : Context := p.cpl.contexts[c]

/-- A context slot replaced. -/
def Part.setCtx (p : Part) (c : CtxNo) (x : Context) : Part := { p with cpl.contexts := p.cpl.contexts.set c x }

/-- An order slot. -/
def Part.order (p : Part) (o : OrderNo) : Option Order := p.ort.slots[o]

/-- An order slot replaced. -/
def Part.setOrder (p : Part) (o : OrderNo) (x : Option Order) : Part := { p with ort.slots := p.ort.slots.set o x }

/-- A bay record. -/
def Part.bay (p : Part) (b : BayNo) : Bay := p.bas[b]

/-- A bay record replaced. -/
def Part.setBay (p : Part) (b : BayNo) (x : Bay) : Part := { p with bas := p.bas.set b x }

/-- A link record. -/
def Part.link (p : Part) (l : LinkNo) : LinkRec := p.lif.link[l]

/-- A link record replaced. -/
def Part.setLink (p : Part) (l : LinkNo) (x : LinkRec) : Part := { p with lif.link := p.lif.link.set l x }

/-- A bay's kick queue. -/
def Part.kickQueue (p : Part) (b : BayNo) : List KickEntry := p.acu.kicks[b]

/-- A bay's kick queue replaced. -/
def Part.setKickQueue (p : Part) (b : BayNo) (q : List KickEntry) : Part := { p with acu.kicks := p.acu.kicks.set b q }

/-- Slot of a tag (0.5.2). -/
def slotOf (tag : Nat) : SlotNo := Fin.ofNat 1024 tag

/-- Generation of a tag (0.5.2). -/
def genOf (tag : Nat) : Nat := tag / 1024

/-- The tag of a slot at a generation (0.5.2). -/
def tagOf (gen : Nat) (slot : SlotNo) : Nat := gen * 1024 + slot.val

/-! Compares (R36) and targets (R116, R117). -/

/-- The zone whose counter takes the compare. -/
def eventZone : Event → Zone
  | .expiry z => z
  | .deadline _ => .B
  | .sort _ => .E
  | .tenoner _ => .D
  | .lastCut => .C
  | .saw _ => .C
  | .wasteOpen _ => .C
  | .wasteShut _ => .C
  | .kick _ _ => .E

/-- Arm a compare; one whose target is not strictly ahead is taken at once (R36, R117). -/
def arm (e : Event) (target : Nat) (p : Part) : Part :=
  if strictlyAhead (eventZone e) target (p.counter (eventZone e)) then
    { p with ztr.compares := p.ztr.compares ++ [⟨e, target⟩] }
  else { p with ztr.atOnce := p.ztr.atOnce ++ [e] }

/-- Cancel a compare: it is not taken (R36). -/
def cancel (e : Event) (p : Part) : Part :=
  { p with
    ztr.compares := p.ztr.compares.filter (fun c => c.event != e)
    ztr.due := p.ztr.due.filter (fun x => x != e)
    ztr.atOnce := p.ztr.atOnce.filter (fun x => x != e) }

/-- The zone's counter, stepping forward, has come to stand at `here`: every compare of the zone with that target is taken, and its
own step is due (R36, R116; 95: compares it takes start their own steps). -/
def takeCompares (z : Zone) (here : Nat) (p : Part) : Part :=
  let hit := fun (c : Compare) => eventZone c.event == z && c.target == here
  { p with
    ztr.compares := p.ztr.compares.filter (fun c => !hit c)
    ztr.due := p.ztr.due ++ (p.ztr.compares.filter hit).map (·.event) }

/-! Frames (R202, R206). -/

/-- A field's bytes (R202). -/
def itemBytes : Item → List Byte
  | .u8 n => put8 n
  | .u16 n => put16 n
  | .u32 n => put32 n

/-- Payload length of a list of fields. -/
def itemsSize (fs : List Item) : Nat :=
  (fs.map fun f => match f with
    | .u8 _ => 1
    | .u16 _ => 2
    | .u32 _ => 4).sum

/-- The bytes of a frame the part sends (Table 11-1). -/
def Frame.bytes (f : Frame) : List Byte :=
  frameBytes (match f.kind with
    | .reply => 0x02
    | .notice => 0x03) f.code f.number (f.fields.flatMap itemBytes)

/-- A flag's field (R202). -/
def flagItem (b : Bool) : Item := .u8 (if b then 1 else 0)

/-- An optional field: a presence byte, and the field when present (R202). -/
def optItems (x : Option (List Item)) : List Item :=
  match x with
  | none => [.u8 0]
  | some fs => .u8 1 :: fs

/-- A list: a count byte, then its entries (R202). -/
def listItems (entries : List (List Item)) : List Item := .u8 entries.length :: entries.flatten

/-- A tag field, 0 for none (0.5.2). -/
def tagItem (t : Option Nat) : Item := .u16 (t.getD 0)

/-- The frame code of a status (Table 11-1). -/
def statusCode (s : Status) : Nat := s.ctorIdx

/-- A frame joins a link's transmit list (R206). -/
def transmit (l : LinkNo) (f : Frame) (p : Part) : Part :=
  p.setLink l { p.link l with transmit := (p.link l).transmit ++ [f] }

/-- A notice on a link: it joins the transmit list, or, with 56 or more frames waiting, it is not sent and the link's notice drop
counter rises (R206). -/
def sendNotice (l : LinkNo) (code : Nat) (fields : List Item) (p : Part) : Part :=
  let x := p.link l
  if Config.noticeLimit ≤ x.transmit.length then p.setLink l { x with drops := bump x.drops }
  else transmit l ⟨.notice, code, 0, fields⟩ p

/-- The link that holds a role, in ENROLLED or in HOLDING (R67, R208). -/
def roleLink (r : Role) (p : Part) : Option LinkNo := (List.finRange 7).find? fun l => (p.link l).role == some r

/-- The link that holds a role in ENROLLED (R70, R213). -/
def enrolledLink (r : Role) (p : Part) : Option LinkNo :=
  (List.finRange 7).find? fun l => (p.link l).role == some r && (p.link l).state == .enrolled

/-- Where a notice goes: the link that holds the role in ENROLLED, or link 0 in UP (R213). -/
def destLink (d : Dest) (p : Part) : Option LinkNo :=
  match d with
  | .supervisor => if (p.link 0).state = .up then some 0 else none
  | .role r => enrolledLink r p

/-- Compose a notice: its destination is tested now, and without one it is not sent (R213). -/
def compose (n : Notice) (p : Part) : Part :=
  match destLink n.dest p with
  | none => p
  | some l => sendNotice l n.code n.fields p

/-- Raise a notice that a request's reply comes before (BDLRDY, ORDSTA, LINSTA: R171, R197, R213): composed now, or, inside a
request, after its reply (log entry 6). -/
def raise (n : Notice) (p : Part) : Part :=
  match p.lif.deferred with
  | none => compose n p
  | some ns => { p with lif.deferred := some (ns ++ [n]) }

def codeANNC : Nat := 0x80
def codeSTRIPSCAN : Nat := 0x81
def codeLUGTEN : Nat := 0x82
def codeBDLRDY : Nat := 0x83
def codeORDSTA : Nat := 0x84
def codeLINSTA : Nat := 0x85
def codeERRNTC : Nat := 0x86
def codeCNTNTC : Nat := 0x87

/-- The bay number a BDLRDY notice begins with (R196). -/
def noticeBay (n : Notice) : Nat :=
  match n.fields with
  | .u8 b :: _ => b
  | _ => 0

/-- The deferred notices in the order they follow a reply: BDLRDY by ascending bay, then ORDSTA, then the rest (R171, R197). -/
def noticeOrder (ns : List Notice) : List Notice :=
  let ready := ns.filter (fun n => n.code == codeBDLRDY)
  (List.range 9).flatMap (fun b => ready.filter (fun n => noticeBay n == b))
    ++ ns.filter (fun n => n.code == codeORDSTA)
    ++ ns.filter (fun n => n.code != codeBDLRDY && n.code != codeORDSTA)

/-- Notices composed one after the other. -/
def composeAll (ns : List Notice) (p : Part) : Part := ns.foldl (fun q n => compose n q) p

/-! LINE FAULT's fields in a payload (R58, R213). -/

/-- A zone's place in Table 2-1. -/
def zoneItem (z : Zone) : Item := .u8 z.ctorIdx

/-- LINE FAULT with its cause and zone (R56, R213). DESIGN CHOICE, unsafe: the state flag, then cause and zone as optional fields
(log entry 7). -/
def faultItems (f : Option FaultCause) : List Item :=
  match f with
  | none => [flagItem false, .u8 0, .u8 0]
  | some (.overflow z) => [flagItem true, .u8 1, .u8 0, .u8 1, zoneItem z]
  | some .doubleDamage => [flagItem true, .u8 1, .u8 1, .u8 0]

/-! Runnability (R67) and PERMIT (R70 to R72). -/

/-- The tool list of the link holding a role, empty when none does (R67). -/
def toolsOf (r : Role) (p : Part) : List Nat :=
  match roleLink r p with
  | none => []
  | some l => (p.link l).tools

/-- A LOADED context whose code is in the tool lists of MOULDER and ENDMATCHER (R67). -/
def runnableCtx (c : CtxNo) (p : Part) : Bool :=
  match (p.ctx c).profile with
  | none => false
  | some f => (toolsOf .moulder p).contains f.code && (toolsOf .endmatcher p).contains f.code

/-- A condition's entry in the report when it is unmet (R72). -/
def unmet (met : Bool) (c : PermitCond) : List PermitCond := if met then [] else [c]

/-- The active context is LOADED (Table 3-5). -/
def activeLoaded (p : Part) : Bool := (p.ctx p.cpl.active).profile.isSome

/-- The unmet conditions of Table 3-5, in its order; with the active context EMPTY, CONTEXT and not TOOLING (R72). -/
def permitReport (p : Part) : List PermitCond :=
  [unmet p.cpl.run .run, unmet p.ztr.fault.isNone .fault, unmet p.ztr.geoValid .geometry,
    unmet (activeLoaded p) .context, unmet (!activeLoaded p || runnableCtx p.cpl.active p) .tooling,
    unmet (enrolledLink .moulder p).isSome .moulder, unmet (enrolledLink .scanner p).isSome .scanner,
    unmet (enrolledLink .endmatcher p).isSome .endmatcher,
    unmet (decide (Config.permitSlots ≤ p.rst.free.length)) .slots].flatten

/-- The LINSTA notice (R72, R213). The report is the list of the unmet conditions. -/
def linsta (p : Part) : Notice :=
  ⟨.supervisor, codeLINSTA,
    [flagItem p.cpl.permit] ++ listItems (p.cpl.report.map fun c => [.u8 c.ctorIdx]) ++ faultItems p.ztr.fault⟩

/-- PERMIT as its conditions give it. While a LINE CLEAR waits for its completion PERMIT may fall and does not rise (R71, R73;
log entry 12). -/
def permitNow (p : Part) : Bool := (permitReport p).isEmpty && (p.lif.clear.isNone || p.cpl.permit)

/-- Re-evaluate runnability, the report and PERMIT, and drive the output (R68, R70, R72). A change of PERMIT, or of LINE FAULT at
the same event, raises one LINSTA (R213). -/
def reevaluate (faultChanged : Bool) (p : Part) : Part :=
  let q := { p with
    cpl.runnable := runnableCtx p.cpl.active p
    cpl.report := permitReport p
    cpl.permit := permitNow p }
  if faultChanged || q.cpl.permit != p.cpl.permit then raise (linsta q) q else q

/-- Set LINE FAULT; a second cause leaves the recorded one (R56). -/
def setFault (f : FaultCause) (p : Part) : Part :=
  if p.ztr.fault.isSome then p else reevaluate true { p with ztr.fault := some f }

/-! Count notices (R214). -/

/-- The three countable events (R214). -/
inductive Countable where
  | landed | rejected | full
deriving DecidableEq, Repr

/-- CNTNTC: the three unreported counts, then the piece LANDED and strip REJECTED counters (R214). -/
def cntntc (landed rejected full : Nat) (p : Part) : Part :=
  compose ⟨.supervisor, codeCNTNTC,
    [.u32 landed, .u32 rejected, .u32 full, .u32 p.rst.pieceRetired[0], .u32 p.rst.stripRetired[1]]⟩ p

/-- One countable event (R214). DEDUCED, unsafe: in PENDING a notice delay of 0 restarts the timer with length 0, and its expiry is a step
of its own (log entry 29). -/
def countEvent (k : Countable) (p : Part) : Part :=
  let one := fun (x : Countable) => if k = x then 1 else 0
  match p.lif.coalesce with
  | none =>
    if p.lif.delay = 0 then cntntc (one .landed) (one .rejected) (one .full) p
    else { p with lif.coalesce := some ⟨one .landed, one .rejected, one .full, p.lif.delay, 8 * p.lif.delay⟩ }
  | some c =>
    let c' : Coalesce := ⟨c.landed + one .landed, c.rejected + one .rejected, c.full + one .full, p.lif.delay, c.ceilingTimer⟩
    { p with lif.coalesce := some c' }

/-- A timer of PENDING runs out: CNTNTC, and back to IDLE (R214). -/
def reportCounts (p : Part) : Part :=
  match p.lif.coalesce with
  | none => p
  | some c => cntntc c.landed c.rejected c.full { p with lif.coalesce := none }

/-! The wrapper of every command. -/

/-- The next state: the part changed by f. Every command of the part ends so. -/
def next (f : Part → Part) (s : State) : Host.Outcome State Fault Refusal := .next { s with part := f s.part }

end Sys2Proof.Machine
end

