-- ==== Sys2Proof/Machine/Store.lean ====
section
/-! DEFINITION. The Record Store's own operations: shadow entries, writing, allocation and retirement of slots, what a read finds
and repairs, the error capture (chapter 1). Condemnation stands in Machine/Condemn.lean. -/

namespace Sys2Proof.Machine

open Sys2Proof

/-! Shadow entries (Table 1-7, R13). -/

/-- Current zone and lead position of a strip record: zone C with lead_C on the cut list, else the zone whose queue holds its entry:
B once it has lead_B, A before (R13, R41, R45). -/
def stripLoc (s : Strip) : Option (Zone × Nat) :=
  if s.state = .cutting then s.leadC.map fun x => (.C, x)
  else
    match s.leadB with
    | some x => some (.B, x)
    | none => s.leadA.map fun x => (.A, x)

/-- Current zone of a piece by its state (R13). -/
def pieceZone : PieceState → Option Zone
  | .planned => none
  | .beltC => some .C
  | .lug => some .D
  | .beltE => some .E
  | .assigned => some .E
  | .unsorted => some .E

/-- The shadow of a record (Table 1-7). -/
def shadowOf : Contents → ShadowBody
  | .nothing => .nothing
  | .strip s => .strip ⟨s.state, s.ctx, stripLoc s, s.lenB <|> s.lenA⟩
  | .piece r =>
    .piece ⟨r.state, r.ctx, (pieceZone r.state).bind (fun z => r.lead.map fun x => (z, x)), r.foot, r.reserved, r.area, r.bay,
      r.parent⟩

/-- A slot rewritten with its generation kept: contents under a new check code, shadow with a new parity bit (R5, R7, R13). -/
def rewritten (gen : Nat) (c : Contents) : Slot := ⟨gen, c, .good, ⟨gen, shadowOf c⟩, false⟩

/-- Rewrite a slot's record (R7, R13). -/
def writeRecord (i : SlotNo) (c : Contents) (p : Part) : Part := p.setSlot i (rewritten (p.slot i).gen c)

/-- Rewrite a strip's record in the slot of its tag. -/
def writeStrip (s : Strip) (p : Part) : Part := writeRecord (slotOf s.tag) (.strip s) p

/-- Rewrite a piece's record in the slot of its tag. -/
def writePiece (r : Piece) (p : Part) : Part := writeRecord (slotOf r.tag) (.piece r) p

/-! Allocation and retirement (R3 to R5). -/

/-- The next generation: 0 becomes 1, 1..62 rise by one, 63 becomes 1 (R3). -/
def nextGen (g : Nat) : Nat := if 63 ≤ g then 1 else g + 1

/-- Reference count of a context slot changed (R61). -/
def changeRefs (f : Nat → Nat) (c : CtxNo) (p : Part) : Part := p.setCtx c { p.ctx c with refs := f (p.ctx c).refs }

/-- Allocate one slot for a record bound to context c: the tag and the part, or none with the free list empty (R3). DESIGN CHOICE,
unsafe: the allocation does not read the slot it takes; the generation advanced is the main contents', untested, and the clean rewrite
leaves no error of the free slot behind (log entry 22). -/
def allocate (c : CtxNo) (mk : Nat → Contents) (p : Part) : Option (Nat × Part) :=
  match p.rst.free with
  | [] => none
  | i :: rest =>
    let gen := nextGen (p.slot i).gen
    let tag := tagOf gen i
    some (tag, changeRefs (· + 1) c (({ p with rst.free := rest } : Part).setSlot i (rewritten gen (mk tag))))

/-- The slot's shadow as it can be had: the entry, or, with its parity wrong and the main contents readable, the one rebuilt from
them (R16). -/
def shadowView (x : Slot) : ShadowBody :=
  if x.parityBad && x.check != .double then shadowOf x.contents else x.shadow.body

/-- The slot's generation as it can be had (R17, R22). -/
def genView (x : Slot) : Nat := if x.check = .double then x.shadow.gen else x.gen

/-- The context of the slot's record. -/
def shadowCtx : ShadowBody → Option CtxNo
  | .nothing => none
  | .strip s => some s.ctx
  | .piece r => some r.ctx

/-- Why a record is retired (Tables 1-3 and 1-6). -/
inductive Retire where
  | strip (c : StripRetire)
  | piece (c : PieceRetire)
deriving DecidableEq, Repr

/-- Place of a strip retire cause in Table 1-3. -/
def stripCauseNo : StripRetire → Fin 6
  | .cutDone => 0
  | .rejected => 1
  | .lost => 2
  | .removed => 3
  | .cleared => 4
  | .damaged => 5

/-- Place of a piece retire cause in Table 1-6. -/
def pieceCauseNo : PieceRetire → Fin 8
  | .landed => 0
  | .endBin => 1
  | .lost => 2
  | .removed => 3
  | .cleared => 4
  | .damaged => 5
  | .condemned => 6
  | .discarded => 7

/-- The retire counter of a kind and cause rises (R5, R31). -/
def countRetire (c : Retire) (p : Part) : Part :=
  match c with
  | .strip x =>
    { p with rst.stripRetired := p.rst.stripRetired.set (stripCauseNo x) (bump p.rst.stripRetired[stripCauseNo x]) }
  | .piece x =>
    { p with rst.pieceRetired := p.rst.pieceRetired.set (pieceCauseNo x) (bump p.rst.pieceRetired[pieceCauseNo x]) }

/-- An eye item whose record is retired becomes none (R38). -/
def dropItem (tag : Nat) (x : EyeItem) : EyeItem := if x = .tag tag then .none else x

/-- Retire a slot: clean contents with the generation kept, the slot to the free list's tail, the counter raised, the reference
released (R5). A retirement of a free slot is not carried out. -/
def retireSlot (i : SlotNo) (cause : Retire) (p : Part) : Part :=
  let x := p.slot i
  match shadowCtx (shadowView x) with
  | none => p
  | some c =>
    let gen := genView x
    let q := changeRefs (· - 1) c (countRetire cause (p.setSlot i (rewritten gen .nothing)))
    { q with
      rst.free := q.rst.free ++ [i]
      ztr.itemA := dropItem (tagOf gen i) q.ztr.itemA
      ztr.itemB := dropItem (tagOf gen i) q.ztr.itemB }

/-- Retire a slot, and re-evaluate PERMIT on the free count it leaves (R5, R71). -/
def retire (i : SlotNo) (cause : Retire) (p : Part) : Part := reevaluate false (retireSlot i cause p)

/-! The error capture (R24) and what a read finds (Table 1-8). -/

/-- Take an error capture: it fills the empty record, and sets OVERRUN on a full one (R24). -/
def takeCapture (k : CaptureKind) (i : SlotNo) (tag : Nat) (r : Reader) (p : Part) : Part :=
  match p.rst.capture with
  | none => { p with rst.capture := some ⟨k, i, tag, r⟩ }
  | some _ => { p with rst.overrun := true }

/-- The capture's fields (R24, R25), and ERRNTC's. DESIGN CHOICE, unsafe: ERRNTC's kind is counted in R24's list of four, DAMAGED 1 and
DOUBLE 3, where R26 names two (log entry 7). -/
def captureItems (c : Capture) : List Item := [.u8 c.kind.ctorIdx, .u16 c.slot.val, .u16 c.tag, .u8 c.reader.ctorIdx]

/-- A double error in a live slot, or with a shadow error: capture, damaged counter, ERRNTC sent at once (R17, R22, R26, R27). -/
def noteDamage (k : CaptureKind) (i : SlotNo) (r : Reader) (p : Part) : Part :=
  let tag := tagOf (p.slot i).shadow.gen i
  let q := takeCapture k i tag r p
  compose ⟨.supervisor, codeERRNTC, captureItems ⟨k, i, tag, r⟩⟩ { q with rst.damaged := bump q.rst.damaged }

/-- What a read of a slot finds (Table 1-8). -/
inductive Finding where
  /-- Main contents good or corrected: the read proceeds, after repair (R15, R16). -/
  | readable
  /-- Double error in a free slot: silent rewrite (R21). -/
  | silent
  /-- Double error in a live slot with a good shadow: condemnation (R17). -/
  | damaged
  /-- Double error with a shadow parity error: automatic LINE CLEAR (R22). -/
  | double
deriving DecidableEq, Repr

/-- Table 1-8. -/
def finding (x : Slot) : Finding :=
  if x.check = .double then
    if x.parityBad then .double
    else if x.shadow.body = .nothing then .silent else .damaged
  else .readable

/-- The repairs of a read that proceeds: a single error corrected, a shadow parity error rebuilt, with their counters and one
capture (R15, R16); a single error in a free slot leaves no trace (R21). -/
def repair (i : SlotNo) (r : Reader) (p : Part) : Part :=
  let x := p.slot i
  let live := x.contents != .nothing
  let single := x.check == .single
  if !single && !x.parityBad then p
  else
    let q := p.setSlot i { x with
      check := .good
      parityBad := false
      shadow := if x.parityBad then ⟨x.gen, shadowOf x.contents⟩ else x.shadow }
    let q := if single && live then { q with rst.corrected := bump q.rst.corrected } else q
    if x.parityBad then takeCapture .shadow i (tagOf x.gen i) r { q with rst.shadowed := bump q.rst.shadowed }
    else if live then takeCapture .corrected i (tagOf x.gen i) r q
    else q

/-- The clean rewrite of a free slot with the shadow's generation (R21). -/
def rewriteFree (i : SlotNo) (p : Part) : Part := p.setSlot i (rewritten (p.slot i).shadow.gen .nothing)

/-- The record a slot holds once its read has proceeded, when the slot's generation is the tag's (R6). -/
def recordAt (tag : Nat) (p : Part) : Contents :=
  if (p.slot (slotOf tag)).gen = genOf tag then (p.slot (slotOf tag)).contents else .nothing

/-- The slots whose shadow names a piece that satisfies a test, in ascending slot order (R18, R160). -/
def slotsWhere (f : ShadowBody → Bool) (p : Part) : List SlotNo :=
  ((p.rst.slots.toList.zipIdx).filter fun x => f (shadowView x.1)).map fun x => Fin.ofNat 1024 x.2

/-- The live slots, in ascending order: those whose shadow names a record; a slot damaged in both places is live when it is not on
the free list (R2). -/
def liveSlots (p : Part) : List SlotNo :=
  ((p.rst.slots.toList.zipIdx).filter fun x =>
    if finding x.1 = .double then !p.rst.free.contains (Fin.ofNat 1024 x.2)
    else shadowView x.1 != .nothing).map fun x => Fin.ofNat 1024 x.2

end Sys2Proof.Machine
end

