-- ==== Sys2Proof/Machine/ActionOps.lean ====
section
/-! DEFINITION. The Action Unit's shared operations: the waste interval list and its coil pair, kick queues, saw actions (chapter 6). -/

namespace Sys2Proof.Machine

open Sys2Proof

/-! The coil pair (R129). -/

/-- The pulse an entry owes (Table 6-3): its open pulse before its shut pulse. -/
def owes : WasteState → Option Coil
  | .waiting => none
  | .waitingShut => none
  | .openDue => some .opening
  | .bothDue => some .opening
  | .opened => none
  | .shutDue => some .shutting

/-- The dead time holds the pulse back: it is on the other coil from the last pulse, and the dead time still runs (R129). -/
def deadBlocks (c : Coil) (p : Part) : Bool :=
  match p.acu.lastCoil with
  | none => false
  | some last => last != c && p.acu.dead.isSome

/-- An open pulse moves its entry on (R129). -/
def afterOpenPulse : WasteState → WasteState
  | .openDue => .opened
  | .bothDue => .shutDue
  | x => x

/-- Start the pulse that entry e owes on coil c: an open pulse moves the entry on, a shut pulse removes it (R129). -/
def startFlap (e : WasteEntry) (c : Coil) (p : Part) : Part :=
  match c with
  | .opening =>
    { p with
      acu.coil := some (.opening, p.acu.flapWidth)
      acu.dead := none
      acu.flapOpen := true
      acu.waste := p.acu.waste.map fun x => if x = e then { x with state := afterOpenPulse x.state } else x }
  | .shutting =>
    { p with
      acu.coil := some (.shutting, p.acu.flapWidth)
      acu.dead := none
      acu.flapOpen := false
      acu.waste := p.acu.waste.filter fun x => x != e }

/-- Serve the owed pulses of the list in list order: the first entry that owes one, when the pair is OFF and no dead time holds its
pulse back (R129). -/
def serveFlap (p : Part) : Part :=
  if p.acu.coil.isSome then p
  else
    match p.acu.waste.find? fun x => (owes x.state).isSome with
    | none => p
    | some e =>
      match owes e.state with
      | none => p
      | some c => if deadBlocks c p then p else startFlap e c p

/-- The pulse width has run: the coil is off, the dead time in force starts, and owed pulses are tested (R129, R134). -/
def endFlapPulse (p : Part) : Part :=
  match p.acu.coil with
  | none => p
  | some (c, _) =>
    serveFlap { p with
      acu.coil := none
      acu.lastCoil := some c
      acu.dead := if p.acu.deadTime = 0 then none else some p.acu.deadTime }

/-- The dead time has run out: owed pulses are tested (R129). -/
def endDeadTime (p : Part) : Part := if p.acu.dead.isSome then serveFlap { p with acu.dead := none } else p

/-! The waste interval list (R126 to R128). -/

/-- Length of an interval; an open-ended one reaches forward without end (R126). -/
def spanOf (e : WasteEntry) : Nat :=
  match e.shutT with
  | some t => minus .C t e.openT
  | none => halfModulus .C - 1

/-- Two intervals overlap, or touch (R126). -/
def touches (a b : WasteEntry) : Bool :=
  decide (minus .C b.openT a.openT ≤ spanOf a) || decide (minus .C a.openT b.openT ≤ spanOf b)

/-- The entry's shut target has been taken (Table 6-3). -/
def shutTaken : WasteState → Bool
  | .bothDue => true
  | .shutDue => true
  | .waitingShut => true
  | .waiting => false
  | .openDue => false
  | .opened => false

/-- The open target has not been taken: WAITING, whatever the shut target (Table 6-3; log entry 23). -/
def openAhead : WasteState → Bool
  | .waiting => true
  | .waitingShut => true
  | .openDue => false
  | .bothDue => false
  | .opened => false
  | .shutDue => false

/-- The state with the open progress of one state and the shut target taken or not (Table 6-3). DEDUCED, unsafe: WAITING with a shut
target taken, which the table does not list, keeps both: the shut target is spent and is not armed again (R116, R126; log entry 23). -/
def withShut (s : WasteState) (taken : Bool) : WasteState :=
  match s with
  | .waiting | .waitingShut => if taken then .waitingShut else .waiting
  | .openDue => if taken then .bothDue else .openDue
  | .bothDue => if taken then .bothDue else .openDue
  | .opened => if taken then .shutDue else .opened
  | .shutDue => if taken then .shutDue else .opened

/-- The further forward of two shut targets, with whether it had been taken; open-ended if either is (R126). -/
def furtherShut (a b : WasteEntry) : Option Nat × Bool :=
  match a.shutT, b.shutT with
  | some x, some y =>
    if x = y then (some x, shutTaken a.state || shutTaken b.state)
    else if precedes .C x y then (some y, shutTaken b.state)
    else (some x, shutTaken a.state)
  | _, _ => (none, false)

/-- Two intervals joined: open target and open progress of the earlier, shut target of the further (R126). DESIGN CHOICE, unsafe: of equal
open targets the second's progress is kept, the entry's that stood in the list, so that an open pulse driven is not driven again (log
entry 27). -/
def joinEntries (a b : WasteEntry) : WasteEntry :=
  let first := if precedes .C a.openT b.openT then a else b
  let shut := furtherShut a b
  ⟨first.openT, shut.1, withShut first.state shut.2⟩

/-- The entry's targets are armed no longer. -/
def cancelEntry (e : WasteEntry) (p : Part) : Part :=
  let p := cancel (.wasteOpen e.openT) p
  match e.shutT with
  | none => p
  | some t => cancel (.wasteShut t) p

/-- Arm the targets of an entry that have not been taken: open first, then shut (R117, R128). -/
def armEntry (e : WasteEntry) (p : Part) : Part :=
  let p := if openAhead e.state then arm (.wasteOpen e.openT) e.openT p else p
  match e.shutT with
  | none => p
  | some t => if shutTaken e.state then p else arm (.wasteShut t) t p

/-- An entry at its place in forward order of open target (R126). -/
def insertEntry (e : WasteEntry) (es : List WasteEntry) : List WasteEntry := insertForward .C (·.openT) e es

/-- A pulse becomes owed by an entry in the place of others: it owes one that none of them owed (R126, R129). -/
def newlyOwes (e : WasteEntry) (gone : List WasteEntry) : Bool :=
  (owes e.state).isSome && gone.all fun x => owes x.state != owes e.state

/-- Place an entry that takes the place of the entries `gone`, among the entries `rest`; the mark names an open-ended entry (R123). A pulse
that becomes owed by it is tested at once (R129). -/
def placeEntry (e : WasteEntry) (gone rest : List WasteEntry) (p : Part) : Part :=
  let p := gone.foldl (fun q x => cancelEntry x q) p
  let q := armEntry e { p with
    acu.waste := insertEntry e rest
    acu.mark := if e.shutT.isNone then some e.openT else p.acu.mark }
  if newlyOwes e gone then serveFlap q else q

/-- The last entry of a full list extended to cover a new interval (R127). -/
def extendLast (last n : WasteEntry) : WasteEntry :=
  let shut : Option Nat × Bool :=
    match last.shutT, n.shutT with
    | some x, some y => if precedes .C x y then (some y, false) else (some x, shutTaken last.state)
    | _, _ => (none, false)
  let openT := if openAhead last.state && precedes .C n.openT last.openT then n.openT else last.openT
  ⟨openT, shut.1, withShut last.state shut.2⟩

/-- Enter a waste interval: joined with the entries it overlaps or touches (R126), or, where it would make a 65th entry, merged into
the last entry (R127). No interval is refused. -/
def enterWaste (openT : Nat) (shutT : Option Nat) (p : Part) : Part :=
  let n : WasteEntry := ⟨openT, shutT, .waiting⟩
  let hits := p.acu.waste.filter (touches n)
  if hits.isEmpty && decide (Config.wasteCap ≤ p.acu.waste.length) then
    match p.acu.waste.getLast? with
    | none => p
    | some last =>
      let others := p.acu.waste.dropLast
      let e := extendLast last n
      let hits := others.filter (touches e)
      placeEntry (hits.foldl joinEntries e) (hits ++ [last]) (others.filter fun x => !touches e x) p
  else placeEntry (hits.foldl joinEntries n) hits (p.acu.waste.filter fun x => !touches n x) p

/-- The state after the open target is taken: WAITING becomes OPEN_DUE (R128), BOTH_DUE where the shut target is spent (log entry 23). -/
def afterOpenTarget : WasteState → WasteState
  | .waiting => .openDue
  | .waitingShut => .bothDue
  | .openDue => .openDue
  | .bothDue => .bothDue
  | .opened => .opened
  | .shutDue => .shutDue

/-- An open target has been taken, and the pair serves what is owed (R128, R129). -/
def takeOpenTarget (target : Nat) (p : Part) : Part :=
  serveFlap { p with
    acu.waste := p.acu.waste.map fun x =>
      if x.openT = target then { x with state := afterOpenTarget x.state } else x }

/-- A shut target has been taken: OPEN_DUE becomes BOTH_DUE, OPENED becomes SHUT_DUE (R128, R129). -/
def takeShutTarget (target : Nat) (p : Part) : Part :=
  serveFlap { p with
    acu.waste := p.acu.waste.map fun x =>
      if x.shutT = some target then { x with state := withShut x.state true } else x }

/-- Close the open-ended interval that the mark names (R123). -/
def closeOpenEnded (shut : Nat) (p : Part) : Part :=
  match p.acu.mark with
  | none => p
  | some o =>
    arm (.wasteShut shut) shut { p with
      acu.mark := none
      acu.waste := p.acu.waste.map fun x => if x.openT = o && x.shutT.isNone then { x with shutT := some shut } else x }

/-- Open and shut targets of a whole-strip interval of length L from a zone C lead position (R18, R122). -/
def wholeOpen (lead : Nat) (p : Part) : Nat := minus .C (lead + p.ztr.geo.dFlap) p.ztr.geo.pFlap
def wholeShut (lead length : Nat) (p : Part) : Nat := minus .C (lead + p.ztr.geo.dFlap + length) p.ztr.geo.pFlap

/-- One waste interval over a whole item (R122); open-ended where its length is not known. -/
def wasteWhole (lead : Nat) (length : Option Nat) (p : Part) : Part :=
  enterWaste (wholeOpen lead p) (length.map fun n => wholeShut lead n p) p

/-! Kicks (R130, R133). -/

/-- A bay's kick target (R130). -/
def kickTarget (b : BayNo) (lead : Nat) (p : Part) : Nat :=
  let k := p.ztr.geo.kicks.getD b.val (0, 0)
  minus .E (lead + k.1) k.2

/-- Insert a kick at its place in forward order of target; a target equal to the counter fires at once (R117, R130). -/
def insertKick (b : BayNo) (target tag : Nat) (p : Part) : Part :=
  arm (.kick b tag) target (p.setKickQueue b (insertForward .E (·.target) ⟨target, tag⟩ (p.kickQueue b)))

/-- Remove a piece's kick entry: a cancelled action does not fire (R133). -/
def removeKick (b : BayNo) (tag : Nat) (p : Part) : Part :=
  cancel (.kick b tag) (p.setKickQueue b ((p.kickQueue b).filter fun x => x.tag != tag))

/-! Saw actions (R124, R133). -/

/-- Cancel every saw action of a strip (R133). -/
def cancelSaw (tag : Nat) (p : Part) : Part :=
  let gone := p.acu.saw.filter fun x => x.tag == tag
  let p := gone.foldl (fun q x => cancel (.saw x.target) q) p
  { p with acu.saw := p.acu.saw.filter fun x => x.tag != tag }

/-- Append saw actions of a strip in ascending order of cut (R119). -/
def appendSaw (targets : List Nat) (tag : Nat) (p : Part) : Part :=
  targets.foldl (fun q t => arm (.saw t) t { q with acu.saw := q.acu.saw ++ [⟨t, tag⟩] }) p

end Sys2Proof.Machine
end

