-- ==== Sys2Proof/Machine/OrderOps.lean ====
section
/-! DEFINITION. Shared operations of the Order Table and the Bundle Assembler: demand, reservations, the areas of orders and bundles,
opening, closing and labelling of bundles (chapters 8 to 10). -/

namespace Sys2Proof.Machine

open Sys2Proof

/-! Demand (R153, R156). -/

/-- An order's record changed; an EMPTY slot stays. -/
def changeOrder (o : OrderNo) (f : Order → Order) (p : Part) : Part := p.setOrder o ((p.order o).map f)

/-- A bay holds a bundle of the order. -/
def holdsOrder (o : OrderNo) (b : Bay) : Bool :=
  match b.bundle with
  | none => false
  | some x => x.slot == o

/-- The bays holding a bundle of the order, ascending (R170). -/
def baysOf (o : OrderNo) (p : Part) : List BayNo := (List.finRange 8).filter fun b => holdsOrder o (p.bay b)

/-- Some bay holds an OPEN bundle of the order (R156). -/
def hasOpen (o : OrderNo) (p : Part) : Bool :=
  (List.finRange 8).any fun b => holdsOrder o (p.bay b) && (p.bay b).state == .opened

/-- A_o, the ordered area (R153). -/
def orderedArea (x : Order) : Nat := x.ordered * x.target

/-- S_o, the effective shortfall (R103, R156). -/
def shortfall (o : OrderNo) (x : Order) (p : Part) : Nat :=
  if x.opened = x.ordered && !hasOpen o p then 0
  else orderedArea x - (x.landedArea + x.transitArea + x.reservedArea)

/-! Reservations (R157, R159). -/

/-- The order can take the piece (R157). -/
def canReserve (o : OrderNo) (x : Order) (r : Piece) (p : Part) : Bool :=
  x.state == .active && x.species == r.species && x.grade == r.grade && x.classes.contains r.len
    && decide (0 < shortfall o x p)

/-- Of two slots in ascending order, the later one only with a higher priority (R157). -/
def reserveChoice (r : Piece) (p : Part) : Option OrderNo :=
  (List.finRange 32).foldl (fun best o =>
    match p.order o with
    | none => best
    | some x =>
      if canReserve o x r p then
        match best with
        | none => some o
        | some b =>
          match p.order b with
          | none => some o
          | some y => if y.priority < x.priority then some o else some b
      else best) none

/-- Attribute a piece: its reserved order set and the order's reserved area raised, or nothing changed; a piece of grade W takes
none (R157). -/
def reservePiece (r : Piece) (p : Part) : Part :=
  if r.grade = .W then p
  else
    match reserveChoice r p with
    | none => p
    | some o =>
      writePiece { r with reserved := some o }
        (changeOrder o (fun x => { x with reservedArea := x.reservedArea + r.area }) p)

/-- Lower an order's reserved area. -/
def lowerReserved (o : OrderNo) (area : Nat) (p : Part) : Part :=
  changeOrder o (fun x => { x with reservedArea := x.reservedArea - area }) p

/-- Release a piece's reservation: the order's reserved area falls, the reserved order becomes absent (R159). -/
def release (r : Piece) (p : Part) : Part :=
  match r.reserved with
  | none => p
  | some o => writePiece { r with reserved := none } (lowerReserved o r.area p)

/-! Labels (R193, R194, R196). -/

/-- Grade number on labels (Table 0-3). -/
def gradeNumber : Grade → Nat
  | .A => 1
  | .B => 2
  | .C => 3
  | .W => 4

/-- The 11-digit number N (R194). -/
def labelNumber (order serial species grade : Nat) : Nat := ((order * 10000 + serial) * 10 + species) * 10 + grade

/-- The identification code as a number: N × 100 + check (R194). -/
def labelCode (order serial species grade : Nat) : Nat :=
  let n := labelNumber order serial species grade
  n * 100 + (98 - (n * 100) % 97)

/-- The 13 decimal digits of a code, leading zeros included (R194). -/
def labelDigits (code : Nat) : List Nat := (List.range 13).map fun k => code / 10 ^ (12 - k) % 10

/-- The label of a bundle in a bay (Table 10-1). -/
def makeLabel (b : BayNo) (x : Bundle) (o : Order) : Label where
  bay := b.val + 1
  order := x.order
  serial := x.serial
  species := o.species
  grade := o.grade
  count := x.count
  area := x.landed
  classes := x.classes
  short := x.short
  inspect := x.inspect
  digits := labelDigits (labelCode x.order x.serial o.species (gradeNumber o.grade))

/-- A label's fields in the order of Table 10-1, the bay number first. DESIGN CHOICE, unsafe: that bay number is also the one R196 and R198
name beside the label record, carried once; grade and grade number a byte each, class counts two bytes, the code one byte a digit (log
entry 7). -/
def labelItems (x : Label) : List Item :=
  [.u8 x.bay, .u32 x.order, .u16 x.serial, .u8 x.species, .u8 x.grade.ctorIdx, .u8 (gradeNumber x.grade), .u8 x.count,
      .u32 x.area]
    ++ listItems (x.classes.map fun c => [.u16 c.1, .u16 c.2])
    ++ [flagItem x.short, flagItem x.inspect] ++ x.digits.map .u8

/-! Bundles (R175, R181 to R185, R188, R189). -/

/-- A bay's bundle changed; a bay without one stays. -/
def changeBundle (b : BayNo) (f : Bundle → Bundle) (p : Part) : Part :=
  p.setBay b { p.bay b with bundle := (p.bay b).bundle.map f }

/-- The piece's class length is short for the order (R175). -/
def isShort (o : Order) (len : Nat) : Bool := decide (len < o.shortLength)

/-- A class count raised, its entry made at its place in ascending order (R183). -/
def countClass (len : Nat) : List (Nat × Nat) → List (Nat × Nat)
  | [] => [(len, 1)]
  | (l, n) :: rest =>
    if len = l then (l, n + 1) :: rest
    else if len < l then (len, 1) :: (l, n) :: rest
    else (l, n) :: countClass len rest

/-- The bay enters FULL: SHORT set with landed area below target (R185), the label composed (R193), BDLRDY raised to LABELLER and
supervisor (R196), one countable event (R185, R214). DESIGN CHOICE, unsafe: BDLRDY carries the bay number once, as the label's first field
(log entry 7). -/
def enterFull (b : BayNo) (p : Part) : Part :=
  match (p.bay b).bundle with
  | none => p
  | some x =>
    match p.order x.slot with
    | none => p
    | some o =>
      let y := { x with short := x.short || decide (x.landed < o.target) }
      let label := makeLabel b y o
      let q := p.setBay b { p.bay b with state := .full, bundle := some { y with label := some label } }
      let q := raise ⟨.role .labeller, codeBDLRDY, labelItems label⟩ q
      let q := raise ⟨.supervisor, codeBDLRDY, labelItems label⟩ q
      countEvent .full q

/-- Outcome of the re-evaluation of a CLOSING bundle (R185). -/
inductive Closing where
  | stay | reopen | fill
deriving DecidableEq, Repr

/-- The table of R185. -/
def closingOutcome (x : Bundle) (o : Order) : Closing :=
  let stuck := x.short || o.state != .active
  if 0 < x.transit then
    if o.target ≤ x.landed + x.transit then .stay else if stuck then .stay else .reopen
  else if o.target ≤ x.landed then .fill
  else if stuck then .fill else .reopen

/-- Re-evaluate a bay in CLOSING; OPEN and FULL are not changed (R185). -/
def reevalClosing (b : BayNo) (p : Part) : Part :=
  if (p.bay b).state = .closing then
    match (p.bay b).bundle with
    | none => p
    | some x =>
      match p.order x.slot with
      | none => p
      | some o =>
        match closingOutcome x o with
        | .stay => p
        | .reopen => p.setBay b { p.bay b with state := .opened }
        | .fill => enterFull b p
  else p

/-- A cancelled kick's area leaves its bundle and its order, and a CLOSING bundle is re-evaluated (R162, R184). -/
def undoTransit (b : BayNo) (area len : Nat) (p : Part) : Part :=
  match (p.bay b).bundle with
  | none => p
  | some x =>
    let short := match p.order x.slot with
      | none => false
      | some o => isShort o len
    let q := changeBundle b (fun y => { y with
      transit := y.transit - area
      shortTransit := if short then y.shortTransit - area else y.shortTransit }) p
    reevalClosing b (changeOrder x.slot (fun o => { o with transitArea := o.transitArea - area }) q)

/-- A landed piece's area moves from transit to landed in bundle and order, and the counts rise (R161, R183 steps 1 to 3). -/
def landArea (b : BayNo) (area len : Nat) (p : Part) : Part :=
  match (p.bay b).bundle with
  | none => p
  | some x =>
    let short := match p.order x.slot with
      | none => false
      | some o => isShort o len
    let q := changeBundle b (fun y => { y with
      transit := y.transit - area
      landed := y.landed + area
      shortTransit := if short then y.shortTransit - area else y.shortTransit
      shortLanded := if short then y.shortLanded + area else y.shortLanded
      count := if y.count < 255 then y.count + 1 else 255
      classes := countClass len y.classes }) p
    changeOrder x.slot (fun o => { o with
      transitArea := o.transitArea - area
      landedArea := o.landedArea + area }) q

/-- An assigned piece's area enters transit in bundle and order (R161, R181 step 2). -/
def addTransit (b : BayNo) (area len : Nat) (p : Part) : Part :=
  match (p.bay b).bundle with
  | none => p
  | some x =>
    let short := match p.order x.slot with
      | none => false
      | some o => isShort o len
    let q := changeBundle b (fun y => { y with
      transit := y.transit + area
      shortTransit := if short then y.shortTransit + area else y.shortTransit }) p
    changeOrder x.slot (fun o => { o with transitArea := o.transitArea + area }) q

/-- A bay is held (R174). -/
def Bay.held (b : Bay) : Bool := b.supHold || b.staHold

/-- The order may open a bundle (R163, R178). -/
def mayOpen (x : Order) : Bool := x.state == .active && decide (x.opened < x.ordered)

/-- The order to open a bundle for: highest priority, then lowest admission sequence, then lowest slot (R178). -/
def openChoice (p : Part) : Option OrderNo :=
  (List.finRange 32).foldl (fun best o =>
    match p.order o with
    | none => best
    | some x =>
      if mayOpen x then
        match best with
        | none => some o
        | some b =>
          match p.order b with
          | none => some o
          | some y => if y.priority < x.priority || (y.priority = x.priority && x.seq < y.seq) then some o else some b
      else best) none

/-- Open a bundle in a bay for an order: bundles opened rises, and the raised value is the serial (R175, R178). -/
def openBundle (b : BayNo) (o : OrderNo) (p : Part) : Part :=
  match p.order o with
  | none => p
  | some x =>
    let q := p.setOrder o (some { x with opened := x.opened + 1 })
    q.setBay b { q.bay b with
      state := .opened
      bundle := some ⟨o, x.number, x.opened + 1, 0, 0, 0, 0, 0, [], false, false, none⟩ }

/-- One bundle opening attempt: every IDLE unheld bay in ascending order (R178). -/
def tryOpening (p : Part) : Part :=
  (List.finRange 8).foldl (fun q b =>
    if (q.bay b).state = .idle && !(q.bay b).held then
      match openChoice q with
      | none => q
      | some o => openBundle b o q
    else q) p

/-- Dismiss an empty bundle: the record cleared, the bay IDLE, the order's bundles opened one lower (R163, R189). -/
def dismiss (b : BayNo) (p : Part) : Part :=
  match (p.bay b).bundle with
  | none => p
  | some x =>
    let q := p.setBay b { p.bay b with state := .idle, bundle := none }
    changeOrder x.slot (fun o => { o with opened := o.opened - 1 }) q

/-- Force-close an OPEN bundle that has area: CLOSING and SHORT, and FULL at once with transit 0 (R188). -/
def forceClose (b : BayNo) (p : Part) : Part :=
  match (p.bay b).bundle with
  | none => p
  | some x =>
    let q := p.setBay b { p.bay b with state := .closing, bundle := some { x with short := true } }
    if x.transit = 0 then reevalClosing b q else q

/-! Order states and ORDSTA (R168, R171). -/

/-- A slot state's place, and an order's state's wherever it is carried: EMPTY, then Table 8-2. DESIGN CHOICE, unsafe: R202 does not say
whether Table 8-2 or the slot states of Table 8-1 number it (log entry 7). -/
def orderStateNo (s : Option OrderState) : Nat :=
  match s with
  | none => 0
  | some x => x.ctorIdx + 1

/-- ORDSTA (R171). -/
def ordsta (o : OrderNo) (before after : Option OrderState) (x : Order) : Notice :=
  ⟨.supervisor, codeORDSTA,
    [.u8 o.val, .u32 x.number, .u8 (orderStateNo before), .u8 (orderStateNo after), .u16 x.ordered, .u16 x.opened,
      .u16 x.retired, .u32 x.landedArea, .u32 x.retiredArea]⟩

/-- A CANCELLING order with no bundle in any bay becomes CANCELLED (R168). -/
def settleCancelled (o : OrderNo) (p : Part) : Part :=
  match p.order o with
  | none => p
  | some x =>
    if x.state = .cancelling && (baysOf o p).isEmpty then p.setOrder o (some { x with state := .cancelled }) else p

/-- ORDSTA for the change from a state to the state the slot now has, if it has changed (R171). -/
def raiseOrdsta (o : OrderNo) (before : Option OrderState) (p : Part) : Part :=
  match p.order o with
  | none => p
  | some x => if some x.state = before then p else raise (ordsta o before (some x.state) x) p

end Sys2Proof.Machine
end

