-- ==== Sys2Proof/Machine/TrackerOps.lean ====
section
/-! DEFINITION. Shared operations of the Zone Tracker: windows, zone queues and their handoff expiries (chapters 2 and 7). -/

namespace Sys2Proof.Machine

open Sys2Proof

/-- Capacity of a zone's queue (R39). -/
def queueCap : Zone → Nat
  | .A => Config.queueCapAB
  | .B => Config.queueCapAB
  | .C => Config.queueCapCDE
  | .D => Config.queueCapCDE
  | .E => Config.queueCapCDE

/-- Distance and window of the handoff out of a zone (Table 2-3). -/
def boundary (g : Geometry) : Zone → Nat × Nat
  | .A => (g.gAB, g.wAB)
  | .B => (g.gBC, g.wBC)
  | .C => (g.gCD, g.wCD)
  | .D => (g.nDis, g.wDE)
  | .E => (g.gEX, g.wEX)

/-- An entry with the window of its next handoff fixed (R39, R44); a tagged lug table entry is ARMED (R137). -/
def makeEntry (z : Zone) (tag : Option Nat) (lead : Nat) (p : Part) : Entry :=
  let b := boundary p.ztr.geo z
  ⟨tag, lead, wrap z (lead + b.1), b.2, if z = .D && tag.isSome then .armed else .none⟩

/-- Arm the expiry of a queue's head at the far end of its window (R44). -/
def armHead (z : Zone) (p : Part) : Part :=
  match p.queue z with
  | [] => p
  | e :: _ => arm (.expiry z) (wrap z (e.expect + e.half)) p

/-- An entry joins the tail; the first of an empty queue is its head (R39, R44). -/
def joinTail (z : Zone) (e : Entry) (p : Part) : Part :=
  match p.queue z with
  | [] => armHead z (p.setQueue z [e])
  | q => p.setQueue z (q ++ [e])

/-- The compares of an entry that leaves its queue: the tenoner compare of a lug table entry (R140), the sort compare of a zone E entry. -/
def entryGone (z : Zone) (e : Entry) (p : Part) : Part :=
  match z with
  | .A => p
  | .B => p
  | .C => p
  | .D => cancel (.tenoner e.lead) p
  | .E =>
    match e.tag with
    | none => p
    | some t => cancel (.sort t) p

/-- The head leaves its queue, and its expiry with it; the next entry's expiry is armed (R44). -/
def popHead (z : Zone) (p : Part) : Part :=
  match p.queue z with
  | [] => p
  | e :: rest => armHead z (cancel (.expiry z) (entryGone z e (p.setQueue z rest)))

/-- A record's entry leaves its queue from whatever place (R39). -/
def removeTag (z : Zone) (tag : Nat) (p : Part) : Part :=
  match p.queue z with
  | [] => p
  | e :: rest =>
    if e.tag = some tag then popHead z p
    else
      match rest.find? fun x => x.tag == some tag with
      | none => p
      | some x => entryGone z x (p.setQueue z (e :: rest.filter fun y => y.tag != some tag))

/-- A strip leaves the cut list (R41). -/
def leaveCutList (tag : Nat) (p : Part) : Part :=
  { p with ztr.cutList := p.ztr.cutList.filter fun x => x.tag != tag }

/-- A strip's tag leaves the planner queue from its place (R83). -/
def leavePlanner (tag : Nat) (p : Part) : Part := { p with cpl.queue := p.cpl.queue.filter fun t => t != tag }

/-- What becomes of a capture that would join a queue (R39, R40). -/
inductive Admission where
  /-- It joins at the tail. -/
  | join
  /-- Not in forward order of the tail: it counts as a stray (R39). -/
  | stray
  /-- The queue is full: LINE FAULT (R40). -/
  | full
deriving DecidableEq, Repr

/-- The order test, then the room test (R39, R40). DEDUCED, unsafe: a capture out of order would add no entry, so the order is
tested first (log entry 11). -/
def admission (z : Zone) (pos : Nat) (p : Part) : Admission :=
  match (p.queue z).getLast? with
  | none => .join
  | some t =>
    if !precedes z t.lead pos then .stray
    else if queueCap z ≤ (p.queue z).length then .full
    else .join

/-- The stray counter rises (R59). -/
def countStray (p : Part) : Part := { p with ztr.stray := bump p.ztr.stray }

/-- The untracked infeed counter rises (R59). -/
def countUntracked (p : Part) : Part := { p with ztr.untracked := bump p.ztr.untracked }

/-- The head of a zone whose window holds the zone's counter (R45). -/
def matchedHead (z : Zone) (p : Part) : Option Entry :=
  match p.queue z with
  | [] => none
  | e :: _ => if inWindow z (p.counter z) e.expect e.half then some e else none

/-- Move a zone's counter (R32 to R34). -/
def setCounter (z : Zone) (n : Nat) (p : Part) : Part := p.setZone z { p.zone z with counter := n }

end Sys2Proof.Machine
end

