-- ==== Sys2Proof/Machine/Condemn.lean ====
section
/-! DEFINITION. LINE CLEAR, condemnation, and the read of a slot with all its outcomes (1.5, 1.6, 1.8; R14 to R22, R27, R57). -/

namespace Sys2Proof.Machine

open Sys2Proof

/-! LINE CLEAR, block by block. -/

/-- The Zone Tracker's part (R57); the compare of the last cut position is the Action Unit's and is kept (R135). -/
def clearTracker (p : Part) : Part :=
  let keep := fun (e : Event) => e == .lastCut
  let p := { p with
    ztr.cutList := []
    ztr.itemA := .none
    ztr.itemB := .none
    ztr.fault := none
    ztr.compares := p.ztr.compares.filter fun c => keep c.event
    ztr.due := p.ztr.due.filter keep
    ztr.atOnce := p.ztr.atOnce.filter keep }
  ((((p.setQueue .A []).setQueue .B []).setQueue .C []).setQueue .D []).setQueue .E []

/-- The Action Unit's part: collections emptied, mark cleared; pulses, coil pair, positions and settings kept (R135). -/
def clearActions (p : Part) : Part :=
  { p with
    acu.saw := []
    acu.waste := []
    acu.mark := none
    acu.kicks := Vector.replicate 8 [] }

/-- The Cut Planner's part: queue emptied, a plan in progress marked for discard (R73, R93). -/
def clearPlanner (p : Part) : Part :=
  { p with
    cpl.queue := []
    cpl.job := p.cpl.job.map fun j => { j with discard := true } }

/-- The reference counts after every live record has been retired (R73). -/
def clearRefs (p : Part) : Part := { p with cpl.contexts := p.cpl.contexts.map fun c => { c with refs := 0 } }

/-- The Order Table's part: reserved and transit areas 0 (R172). -/
def clearOrders (p : Part) : Part :=
  { p with ort.slots := p.ort.slots.map fun x => x.map fun o => { o with reservedArea := 0, transitArea := 0 } }

/-- The Bundle Assembler's part: transit 0 in every bundle, then CLOSING bundles re-evaluated in ascending bay number; their BDLRDY
notices wait for the completion (R191, R197). DEDUCED, unsafe: those of a second clear stand behind those of the first (log entry 12). -/
def clearBays (p : Part) : Part :=
  let saved := p.lif.deferred
  let p := { p with
    bas := p.bas.map fun b => { b with bundle := b.bundle.map fun x => { x with transit := 0, shortTransit := 0 } }
    lif.deferred := some [] }
  let p := (List.finRange 8).foldl (fun q b => reevalClosing b q) p
  { p with
    lif.deferred := saved
    lif.clear := p.lif.clear.map fun c => { c with ready := c.ready ++ p.lif.deferred.getD [] } }

/-- The LINE CLEAR in progress becomes the automatic one of R22 (R27). -/
def makeAutomatic (p : Part) : Part := { p with lif.clear := p.lif.clear.map fun c => { c with auto := true } }

/-- A live slot retired CLEARED by its kind (R27); one whose kind cannot be had is rewritten clean and freed (log entry 3). -/
def retireCleared (i : SlotNo) (p : Part) : Part :=
  match shadowView (p.slot i) with
  | .strip _ => retireSlot i (.strip .cleared) p
  | .piece _ => retireSlot i (.piece .cleared) p
  | .nothing => let q := rewriteFree i p
    { q with rst.free := q.rst.free ++ [i] }

/-- The clear reads each live slot as it retires it; a double error condemns nothing, and a DOUBLE makes the clear the automatic one
(R27). DEDUCED, unsafe: `own`, the slot whose DOUBLE started the clear, is not reported a second time; the slot of a condemnation that
the clear has ended is read like the others, and so captured, counted and noticed again (R22; log entry 12). -/
def clearSlot (own : Option SlotNo) (p : Part) (i : SlotNo) : Part :=
  match finding (p.slot i) with
  | .readable => retireCleared i (repair i .rst p)
  | .silent => p
  | .damaged => retireCleared i (noteDamage .damaged i .rst p)
  | .double => retireCleared i (if own = some i then p else makeAutomatic (noteDamage .double i .rst p))

/-- The Record Store's part: every live record retired CLEARED in ascending slot order (R27). -/
def clearStore (own : Option SlotNo) (p : Part) : Part := (liveSlots p).foldl (clearSlot own) p

/-- Note the LINE CLEAR that now waits for its completion; one that waits already is joined with it (log entry 12). -/
def startClear (auto : Bool) (reply : Option Nat) (p : Part) : Part :=
  { p with lif.clear := match p.lif.clear with
      | none => some ⟨auto, reply, p.cpl.permit, p.ztr.fault, []⟩
      | some c => some { c with auto := c.auto || auto, reply := c.reply <|> reply } }

/-- The LINE CLEAR under way is the automatic one (R22, R27). -/
def clearIsAuto (p : Part) : Bool :=
  match p.lif.clear with
  | none => false
  | some c => c.auto

/-- The clean rewrite of every slot by an automatic LINE CLEAR (R22). DEDUCED, unsafe: the slots that were free are rewritten with their
generation and not read, so what errors they held leaves no trace (log entry 12). -/
def rewriteEvery (p : Part) : Part :=
  if clearIsAuto p then { p with rst.slots := p.rst.slots.map fun x => rewritten (genView x) .nothing } else p

/-- LINE CLEAR: every block carries out its own part (R57). Reply, PERMIT and notices wait for LINE_CLEAR_COMPLETE. `own` is the slot
whose DOUBLE started it, if one did (R22). -/
def lineClear (own : Option SlotNo) (reply : Option Nat) (p : Part) : Part :=
  clearRefs (rewriteEvery (clearStore own (clearBays (clearOrders (clearPlanner (clearActions (clearTracker
    (startClear own.isSome reply p))))))))

/-- Double error with a shadow error: capture, counter, ERRNTC, then a LINE CLEAR of the part's own (R22). -/
def automaticClear (i : SlotNo) (r : Reader) (p : Part) : Part := lineClear (some i) none (noteDamage .double i r p)

/-! Condemnation (R17 to R20). -/

/-- End trim of a context slot. -/
def trimOf (c : CtxNo) (p : Part) : Nat :=
  match (p.ctx c).profile with
  | none => 0
  | some f => f.trim

/-- A piece undone from its shadow entry by its state (R19); the class length of an ASSIGNED piece is (footprint - 2T) / 10 (R184). -/
def undoPiece (tag : Nat) (x : PieceShadow) (p : Part) : Part :=
  let p :=
    if x.state = .assigned then
      match x.bay with
      | none => p
      | some b => undoTransit b x.area ((x.foot - 2 * trimOf x.ctx p) / 10) (removeKick b tag p)
    else
      match x.reserved with
      | none => p
      | some o => lowerReserved o x.area p
  match pieceZone x.state with
  | none => p
  | some z => removeTag z tag p

/-- A piece undone and its slot retired with the condemnation's cause (R19). -/
def condemnPieceSlot (i : SlotNo) (cause : PieceRetire) (p : Part) : Part :=
  match shadowView (p.slot i) with
  | .piece x => retire i (.piece cause) (undoPiece (tagOf (genView (p.slot i)) i) x p)
  | .strip _ => p
  | .nothing => p

/-- The shadow names a piece of the strip (R18). -/
def isChildOf (tag : Nat) (b : ShadowBody) : Bool :=
  match b with
  | .piece x => x.parent == tag
  | .strip _ => false
  | .nothing => false

/-- One piece of a condemned strip, read as it is reached: CONDEMNED; a DOUBLE ends the condemnation (R18, R19, R22). DEDUCED, unsafe: one
whose own slot is found damaged is retired DAMAGED, with a capture and ERRNTC of its own (R17; log entry 30). The flag says that a
LINE CLEAR has ended it. -/
def condemnChild (acc : Bool × Part) (i : SlotNo) : Bool × Part :=
  if acc.1 then acc
  else
    match finding (acc.2.slot i) with
    | .readable => (false, condemnPieceSlot i .condemned (repair i .rst acc.2))
    | .silent => acc
    | .damaged => (false, condemnPieceSlot i .damaged (noteDamage .damaged i .rst acc.2))
    | .double => (true, automaticClear i .rst acc.2)

/-- Every live piece of the strip, in ascending slot order, but for a slot already being condemned (R18). -/
def condemnChildren (tag : Nat) (except : Option SlotNo) (p : Part) : Bool × Part :=
  ((slotsWhere (isChildOf tag) p).filter fun i => some i != except).foldl condemnChild (false, p)

/-- Remove a strip's zone queue entry, wherever its shadow says it stands. -/
def removeStripEntry (tag : Nat) (loc : Option (Zone × Nat)) (p : Part) : Part :=
  match loc with
  | none => p
  | some (z, _) => removeTag z tag p

/-- A strip condemned by its shadow state, then retired DAMAGED (R17 step 5, R18). The flag says that a LINE CLEAR has ended it. -/
def condemnStrip (i : SlotNo) (except : Option SlotNo) (p : Part) : Bool × Part :=
  match (p.slot i).shadow.body with
  | .piece _ => (false, p)
  | .nothing => (false, p)
  | .strip x =>
    let tag := tagOf (p.slot i).shadow.gen i
    let done := fun (q : Part) => (false, retire i (.strip .damaged) q)
    match x.state with
    | .cutting =>
      let (cleared, q) := condemnChildren tag except (cancelSaw tag p)
      if cleared then (true, q)
      else
        let q := match x.loc with
          | none => q
          | some (_, lead) => wasteWhole lead x.length q
        done (leaveCutList tag q)
    | .planned =>
      let (cleared, q) := condemnChildren tag except p
      if cleared then (true, q) else done (removeStripEntry tag x.loc q)
    | .mapped => done (cancel (.deadline tag) (removeStripEntry tag x.loc (leavePlanner tag p)))
    | .planning => done (cancel (.deadline tag) (removeStripEntry tag x.loc p))
    | .enteringA => done (cancel (.deadline tag) (removeStripEntry tag x.loc p))
    | .inA => done (cancel (.deadline tag) (removeStripEntry tag x.loc p))
    | .enteringB => done (cancel (.deadline tag) (removeStripEntry tag x.loc p))
    | .scanning => done (cancel (.deadline tag) (removeStripEntry tag x.loc p))
    | .rejecting => done (cancel (.deadline tag) (removeStripEntry tag x.loc p))

/-- A piece's tag in its parent's plan list becomes a void place; the plan's cuts and other pieces stand (R20). -/
def writeVoid (tag parent : Nat) (p : Part) : Part :=
  match recordAt parent p with
  | .strip s =>
    writeStrip { s with plan := s.plan.map fun x =>
      { x with places := x.places.map fun e => if e.tag = some tag then { e with tag := none } else e } } p
  | .piece _ => p
  | .nothing => p

/-- The void place of a PLANNED piece: the parent is read like any other; one found damaged is condemned and no void place is written
(R20). The flag says that a LINE CLEAR has ended it. -/
def voidPlace (r : Reader) (tag parent : Nat) (except : Option SlotNo) (p : Part) : Bool × Part :=
  let j := slotOf parent
  match finding (p.slot j) with
  | .readable => (false, writeVoid tag parent (repair j r p))
  | .silent => (false, rewriteFree j p)
  | .damaged => condemnStrip j except (noteDamage .damaged j r p)
  | .double => (true, automaticClear j r p)

/-- A piece condemned for damage in its own slot (R19, R20). -/
def condemnPiece (i : SlotNo) (x : PieceShadow) (p : Part) : Bool × Part :=
  let tag := tagOf (p.slot i).shadow.gen i
  let q := undoPiece tag x p
  let (cleared, q) := if x.state = .planned then voidPlace .rst tag x.parent (some i) q else (false, q)
  if cleared then (true, q) else (false, retire i (.piece .damaged) q)

/-! The read (R14). -/

/-- What a read comes to for the one who made it. -/
inductive ReadResult where
  /-- The read proceeds. -/
  | ok
  /-- The record was condemned (R17). -/
  | damaged
  /-- A DOUBLE was found and the line has been cleared (R22). -/
  | cleared
deriving DecidableEq, Repr

/-- Condemn the record of a slot whose read found a double error with a good shadow (R17). -/
def condemn (i : SlotNo) (r : Reader) (p : Part) : ReadResult × Part :=
  let q := noteDamage .damaged i r p
  let (cleared, q) :=
    match (p.slot i).shadow.body with
    | .strip _ => condemnStrip i none q
    | .piece x => condemnPiece i x q
    | .nothing => (false, q)
  (if cleared then .cleared else .damaged, q)

/-- Read a slot, with every outcome of Table 1-8 (R14). -/
def readSlot (i : SlotNo) (r : Reader) (p : Part) : ReadResult × Part :=
  match finding (p.slot i) with
  | .readable => (.ok, repair i r p)
  | .silent => (.ok, rewriteFree i p)
  | .damaged => condemn i r p
  | .double => (.cleared, automaticClear i r p)

/-- What a tag names (R6). -/
inductive Lookup where
  | strip (s : Strip)
  | piece (x : Piece)
  | stale
  | damaged
  | cleared
deriving DecidableEq, Repr

/-- The tag check: the slot is read, and the tag is current when the slot is live at its generation (R6). -/
def lookup (tag : Nat) (r : Reader) (p : Part) : Lookup × Part :=
  match readSlot (slotOf tag) r p with
  | (.ok, q) =>
    match recordAt tag q with
    | .strip s => (.strip s, q)
    | .piece x => (.piece x, q)
    | .nothing => (.stale, q)
  | (.damaged, q) => (.damaged, q)
  | (.cleared, q) => (.cleared, q)

end Sys2Proof.Machine
end

