-- ==== Sys2Proof/Machine/Plan.lean ====
section
/-! DEFINITION. The cut plan (chapter 5): the plan chosen from a snapshot (Stages 1 to 8), and the cuts and waste of a plan (Stage 9).
The choice is written as the manual specifies it, by the admissible plans and the selection rules. -/

namespace Sys2Proof.Machine

open Sys2Proof

/-! Stage 2: defect normalisation (R97, R98). -/

/-- A normalised defect: its expanded interval, class and posted size (R97). -/
structure NormDefect where
  start : Nat
  stop : Nat
  cls : Nat
  size : Nat
deriving DecidableEq, Repr

/-- One posted defect clamped, discarded if nothing is left of it, and expanded by M (R97). -/
def normDefect (length clearance : Nat) (d : Defect) : Option NormDefect :=
  let s := min d.start length
  let e := min d.stop length
  if s < e then some ⟨s - clearance, min length (e + clearance), d.cls, d.size⟩ else none

/-- The normalised list, in the order posted (R97). -/
def normalised (x : Snapshot) : List NormDefect := x.defects.filterMap (normDefect x.length x.profile.clearance)

/-- The candidate starts beside 0: the expanded ends, each once (R98). -/
def expandedEnds (x : Snapshot) : List Nat := ((normalised x).map (·.stop)).eraseDups

/-! Stage 3: grade of a placement (R99, R100). -/

/-- Footprint of a class: 10 × length + 2T (R99). -/
def footprint (f : Profile) (len : Nat) : Nat := 10 * len + 2 * f.trim

/-- The placement [x, x + foot) overlaps a normalised defect (R99). -/
def NormDefect.overlaps (d : NormDefect) (x foot : Nat) : Bool := decide (x < d.stop) && decide (d.start < x + foot)

/-- The limits of class k in grade number g, 0 for A to 2 for C (Table 3-4). DESIGN CHOICE, unsafe: a table's entries stand by class,
grades A, B, C within a class, as GRDLD carries them (log entry 7). -/
def limitOf (limits : List GradeLimit) (k g : Nat) : GradeLimit := limits.getD (3 * k + g) ⟨0, 0⟩

/-- A class is fatal for the species: maximum count 0 in all three grades (R65). -/
def fatal (limits : List GradeLimit) (k : Nat) : Bool :=
  (limitOf limits k 0).count == 0 && (limitOf limits k 1).count == 0 && (limitOf limits k 2).count == 0

/-- The defects a placement overlaps (R99). -/
def overlapped (x : Snapshot) (start foot : Nat) : List NormDefect := (normalised x).filter fun d => d.overlaps start foot

/-- The overlapped defects of one class meet the limits of a grade (R100). -/
def meetsClass (l : GradeLimit) (ds : List NormDefect) : Bool :=
  ds.isEmpty || ((l.count == 15 || decide (ds.length ≤ l.count)) && ds.all fun d => l.size == 255 || decide (d.size ≤ 10 * l.size))

/-- Every class meets the limits of the grade (R100). -/
def meetsGrade (limits : List GradeLimit) (g : Nat) (ds : List NormDefect) : Bool :=
  (List.range 16).all fun k => meetsClass (limitOf limits k g) (ds.filter fun d => d.cls == k)

/-- The grade of a placement over its overlapped defects, or none where it is inadmissible (R99, R100). -/
def gradeOf (limits : List GradeLimit) (ds : List NormDefect) : Option Grade :=
  if ds.any fun d => fatal limits d.cls then none
  else if meetsGrade limits 0 ds then some .A
  else if meetsGrade limits 1 ds then some .B
  else if meetsGrade limits 2 ds then some .C
  else none

/-! Stages 4 to 6: area, bonus and value (R101 to R104). -/

/-- Area of a piece in cm² (R101). -/
def areaOf (len width : Nat) : Nat := (len * width + 500) / 1000

/-- The bonus one order gives a class (R102). -/
def orderBonus (bonus : Nat) (o : OrderNo) (x : Order) (p : Part) : Nat := bonus * shortfall o x p / orderedArea x

/-- The order counts for a bonus of the species, grade and class length (R102). -/
def bonusMatches (x : Order) (species : Nat) (g : Grade) (len : Nat) : Bool :=
  x.state == .active && x.species == species && x.grade == g && x.classes.contains len

/-- The bonus of a grade and class length: the greatest over the orders that match (R102). -/
def bonusOf (bonus species : Nat) (g : Grade) (len : Nat) (p : Part) : Nat :=
  (List.finRange 32).foldl (fun best o =>
    match p.order o with
    | none => best
    | some x => if bonusMatches x species g len then max best (orderBonus bonus o x p) else best) 0

/-- The bonus table at planning start: a row for each of A, B, C, a column for each class (R102). -/
def bonusTable (f : Profile) (species : Nat) (p : Part) : List (List Nat) :=
  [Grade.A, Grade.B, Grade.C].map fun g => f.classes.map fun len => bonusOf f.bonus species g len p

/-- A grade's row of the value table; W has none (Table 3-1). -/
def valueRow (f : Profile) : Grade → List Nat
  | .A => f.valuesA
  | .B => f.valuesB
  | .C => f.valuesC
  | .W => []

/-- The value of an admissible placement of grade g and the class at place c of the list, counted from 0 (R104). -/
def valueOf (x : Snapshot) (g : Grade) (c : Nat) : Nat :=
  min 4095 ((valueRow x.profile g).getD c 0 + (x.bonus.getD g.ctorIdx []).getD c 0)

/-! Stage 7: admissible plans (R105, R106). -/

/-- A place of a plan (R95). `cls` is the class index, 1 for the shortest. -/
structure Place where
  start : Nat
  cls : Nat
  len : Nat
  foot : Nat
  grade : Grade
  value : Nat
  area : Nat
deriving DecidableEq, Repr

/-- The placement of the class at place c of the list at a start: within the strip and admissible at Stage 3, or none (R99, R105). -/
def makePlace (x : Snapshot) (start c : Nat) : Option Place :=
  match x.profile.classes[c]? with
  | none => none
  | some len =>
    let foot := footprint x.profile len
    if x.length < start + foot then none
    else
      match gradeOf x.limits (overlapped x start foot) with
      | none => none
      | some g => some ⟨start, c + 1, len, foot, g, valueOf x g c, areaOf len x.profile.width⟩

/-- Every admissible placement at a start. -/
def placesAt (x : Snapshot) (start : Nat) : List Place :=
  (List.range x.profile.classes.length).filterMap (makePlace x start)

/-- The starts a place may take: the first of a plan, or one after a place that ends at `e` (R105). -/
def startsAfter (x : Snapshot) : Option Nat → List Nat
  | none => 0 :: (expandedEnds x).filter fun e' => decide (x.profile.kerf ≤ e') && e' != 0
  | some e =>
    (e + x.profile.kerf) :: (expandedEnds x).filter fun e' =>
      decide (e + 2 * x.profile.kerf ≤ e') && e' != e + x.profile.kerf

/-- Every sequence of at most n places whose starts follow R105, after a place that ends at `prev`, or from the leading edge. -/
def plansFrom (x : Snapshot) : Nat → Option Nat → List (List Place)
  | 0, _ => [[]]
  | n + 1, prev =>
    [] :: (startsAfter x prev).flatMap fun s =>
      (placesAt x s).flatMap fun pl => (plansFrom x n (some (pl.start + pl.foot))).map fun rest => pl :: rest

/-- The place starts clear of the one before: it has a leading cut of its own (R105). -/
def separated (kerf : Nat) (prev : Option Nat) (start : Nat) : Bool :=
  match prev with
  | none => start != 0
  | some e => start != e + kerf

/-- The cut set of places given by start and footprint, ascending (R106). -/
def cutsFrom (kerf length : Nat) : Option Nat → List (Nat × Nat) → List Nat
  | _, [] => []
  | prev, (s, f) :: rest =>
    (if separated kerf prev s then [s - kerf] else []) ++ (if s + f < length then [s + f] else [])
      ++ cutsFrom kerf length (some (s + f)) rest

/-- The cuts of a plan of places given by start and footprint (R106). -/
def cutsOf (kerf length : Nat) (places : List (Nat × Nat)) : List Nat := cutsFrom kerf length none places

/-- Every two consecutive cuts lie at least the saw recovery distance apart (R106). -/
def spaced (recovery : Nat) : List Nat → Bool
  | [] => true
  | [_] => true
  | a :: b :: rest => decide (a + recovery ≤ b) && spaced recovery (b :: rest)

/-- Start and footprint of each place. -/
def spans (places : List Place) : List (Nat × Nat) := places.map fun pl => (pl.start, pl.foot)

/-- The admissible plans of at most eight places (R105, R106). -/
def admissiblePlans (x : Snapshot) : List (List Place) :=
  (plansFrom x 8 none).filter fun q => spaced x.recovery (cutsOf x.profile.kerf x.length (spans q))

/-! Stage 8: selection (R107, R108). -/

/-- The plan value: the sum of the places' values (R95). -/
def planValue (q : List Place) : Nat := (q.map (·.value)).sum

/-- The sum of class lengths (R107). -/
def planLength (q : List Place) : Nat := (q.map (·.len)).sum

/-- The third test: at the first index at which the plans differ in start or class, the earlier start, then the longer class (R107). -/
def earlier : List Place → List Place → Bool
  | a :: as, b :: bs =>
    if a.start ≠ b.start then decide (a.start < b.start)
    else if a.len ≠ b.len then decide (b.len < a.len)
    else earlier as bs
  | _, _ => false

/-- Plan a is chosen over plan b (R107). -/
def better (a b : List Place) : Bool :=
  if planValue a ≠ planValue b then decide (planValue b < planValue a)
  else if a.length ≠ b.length then decide (a.length < b.length)
  else if planLength a ≠ planLength b then decide (planLength b < planLength a)
  else earlier a b

/-- Stages 1 to 8: the chosen plan; the empty plan for a strip shorter than the kerf (R96, R107, R108). -/
def choosePlan (x : Snapshot) : List Place :=
  if x.length < x.profile.kerf then []
  else (admissiblePlans x).foldl (fun best q => if better q best then q else best) []

/-! Stage 9: waste (R109, R110). -/

/-- The waste from position `from` on, of the places that remain: up to each separated place's leading cut, and at last to L. -/
def wasteFrom (kerf length : Nat) : Nat → List (Nat × Nat) → List (Nat × Nat)
  | at_, [] => if at_ < length then [(at_, length)] else []
  | at_, (s, f) :: rest =>
    (if at_ < s - kerf then [(at_, s - kerf)] else []) ++ wasteFrom kerf length (min length (s + f + kerf)) rest

/-- The waste intervals of a plan (R110). -/
def wasteOf (kerf length : Nat) (places : List (Nat × Nat)) : List (Nat × Nat) := wasteFrom kerf length 0 places

end Sys2Proof.Machine
end

