-- ==== Sys2Proof/Machine/LineOps.lean ====
section
/-! DEFINITION. What the line's events do to strips and pieces: rejection, loss, UNSURE marking, whole-strip waste and scheduling at
the C-eye (chapters 1, 2 and 6). A pair with a flag says, by the flag, that a read has found a DOUBLE and the line has been cleared
(R22): what an event still had to do then ends. -/

namespace Sys2Proof.Machine

open Sys2Proof

/-- Go on unless a read has cleared the line (R22). -/
def unlessCleared (x : Bool × Part) (f : Part → Part) : Part := if x.1 then x.2 else f x.2

/-- One step after the other, ending at a cleared line (R22). -/
def thenStep (x : Bool × Part) (f : Part → Bool × Part) : Bool × Part := if x.1 then x else f x.2

/-- An EMPTY context slot's fields read as 0 (R60). -/
def blankProfile : Profile := ⟨0, 0, 0, 0, 0, 0, [], [], [], [], 0, 0⟩

/-- The profile of a record's context slot (R74). -/
def profileOf (c : CtxNo) (p : Part) : Profile := (p.ctx c).profile.getD blankProfile

/-! Pieces of a strip that ends before they are on their own (R8, R12, R29). -/

/-- A piece that ends: reservation released, its zone C entry removed if it has one, retired (R11, R29, R159). -/
def endPiece (x : Piece) (cause : PieceRetire) (p : Part) : Part :=
  let p := release x p
  let p := if x.state = .beltC then removeTag .C x.tag p else p
  retire (slotOf x.tag) (.piece cause) p

/-- One place of a plan: its piece is read, and ends if it is in one of the states asked for. -/
def endPlace (r : Reader) (cause : PieceRetire) (states : List PieceState) (acc : Bool × Part) (e : PlanEntry) : Bool × Part :=
  if acc.1 then acc
  else
    match e.tag with
    | none => acc
    | some t =>
      match lookup t r acc.2 with
      | (.piece x, q) => (false, if states.contains x.state then endPiece x cause q else q)
      | (.cleared, q) => (true, q)
      | (_, q) => (false, q)

/-- The pieces of a strip's plan in the states asked for end, in plan order (R8, R12, R29). -/
def endPieces (r : Reader) (cause : PieceRetire) (states : List PieceState) (s : Strip) (p : Part) : Bool × Part :=
  ((s.plan.map (·.places)).getD []).foldl (endPlace r cause states) (false, p)

/-! Rejection (R8). -/

/-- A strip enters REJECTING: it leaves the planner queue, its deadline compare is cancelled, the first cause is kept, and the PLANNED
pieces of a PLANNED strip end DISCARDED. A strip in REJECTING or CUTTING keeps state and cause (R8). -/
def rejectStrip (r : Reader) (cause : RejectCause) (s : Strip) (p : Part) : Bool × Part :=
  if s.state = .rejecting ∨ s.state = .cutting then (false, writeStrip s p)
  else
    let p := cancel (.deadline s.tag) (leavePlanner s.tag p)
    let p := writeStrip { s with state := .rejecting, reject := some cause } p
    if s.state = .planned then endPieces r .discarded [.planned] s p else (false, p)

/-! Loss (R47). -/

/-- A lost strip's bookkeeping undone, then retired LOST (R12, R47). -/
def loseStrip (s : Strip) (p : Part) : Part :=
  let p := cancel (.deadline s.tag) (leavePlanner s.tag p)
  unlessCleared (if s.state = .planned then endPieces .ztr .discarded [.planned] s p else (false, p))
    (retire (slotOf s.tag) (.strip .lost))

/-- An ASSIGNED piece's kick is cancelled and its transit area taken out (R133, R162, R184). -/
def cancelKick (x : Piece) (p : Part) : Part :=
  match x.bay with
  | none => p
  | some b => undoTransit b x.area x.len (removeKick b x.tag p)

/-- A piece's bookkeeping undone by its state: the kick of an ASSIGNED piece, else the reservation it may hold (R11, R47, R54). -/
def undoShare (x : Piece) (p : Part) : Part := if x.state = .assigned then cancelKick x p else release x p

/-- A lost piece's bookkeeping undone, then retired LOST (R47). -/
def losePiece (x : Piece) (p : Part) : Part := retire (slotOf x.tag) (.piece .lost) (undoShare x p)

/-- The head of a zone's queue is lost (R47); a damaged record is condemned in the loss's place. -/
def loseHead (z : Zone) (p : Part) : Part :=
  match p.queue z with
  | [] => p
  | e :: _ =>
    let p := popHead z p
    match e.tag with
    | none => p
    | some t =>
      match lookup t .ztr p with
      | (.strip s, q) => loseStrip s q
      | (.piece x, q) => losePiece x q
      | (_, q) => q

/-- A capture that finds a full queue: LINE FAULT with the zone, and a matched head is lost (R40). -/
def overflow (up down : Zone) (isMatch : Bool) (p : Part) : Part :=
  let p := setFault (.overflow down) p
  if isMatch then loseHead up p else p

/-! UNSURE marking (R35). -/

/-- A record marked UNSURE (R35). -/
def markRecord (acc : Bool × Part) (t : Nat) : Bool × Part :=
  if acc.1 then acc
  else
    match lookup t .ztr acc.2 with
    | (.strip s, q) => rejectStrip .ztr .unsure { s with unsure := true } q
    | (.piece x, q) =>
      (false,
        if x.state = .assigned then
          writePiece { x with unsure := true, state := .unsorted, bay := none, serial := none } (cancelKick x q)
        else writePiece { x with unsure := true } q)
    | (.cleared, q) => (true, q)
    | (_, q) => (false, q)

/-- The tags that stand in a zone: of its queue, and for zone C of the cut list (R35). DESIGN CHOICE, unsafe: they are marked in this
order, the queue from its head to its tail and then the cut list; R35 gives none (log entry 24). -/
def zoneTags (z : Zone) (p : Part) : List Nat :=
  (p.queue z).filterMap (·.tag) ++ (if z = .C then p.ztr.cutList.map (·.tag) else [])

/-- A zone is marked UNSURE (R35), record by record in the order of `zoneTags` (log entry 24). -/
def markUnsure (z : Zone) (p : Part) : Part := ((zoneTags z p).foldl markRecord (false, p)).2

/-! Whole-strip waste (R122). -/

/-- A strip is wasted whole at a zone C lead position, sized by L_B, else L_A, and retired REJECTED (R9, R122, R214). -/
def wasteStrip (tag lead : Nat) (p : Part) : Part :=
  match recordAt tag p with
  | .strip s =>
    countEvent .rejected (retire (slotOf tag) (.strip .rejected) (wasteWhole lead (s.lenB <|> s.lenA) p))
  | .piece _ => p
  | .nothing => p

/-- A strip rejected at the C-eye and wasted whole (R50, R89, R120). -/
def rejectAndWaste (cause : RejectCause) (s : Strip) (lead : Nat) (p : Part) : Part :=
  unlessCleared (rejectStrip .ztr cause s p) (wasteStrip s.tag lead)

/-! Scheduling (R118 to R121). -/

/-- Start and footprint of each place of the strip's plan, void places included (R113). -/
def planSpans (s : Strip) : List (Nat × Nat) := ((s.plan.map (·.places)).getD []).map fun e => (e.start, e.foot)

/-- The saw targets of a strip scheduled at a lead position (R111). -/
def sawTargets (s : Strip) (lead : Nat) (p : Part) : List Nat :=
  (cutsOf (profileOf s.ctx p).kerf (s.lenB.getD 0) (planSpans s)).map fun y =>
    minus .C (lead + p.ztr.geo.dSaw + y) p.ztr.geo.pSaw

/-- The flap targets of a strip scheduled at a lead position (R112). -/
def flapTargets (s : Strip) (lead : Nat) (p : Part) : List (Nat × Nat) :=
  (wasteOf (profileOf s.ctx p).kerf (s.lenB.getD 0) (planSpans s)).map fun w =>
    (minus .C (lead + p.ztr.geo.dFlap + w.1) p.ztr.geo.pFlap, minus .C (lead + p.ztr.geo.dFlap + w.2) p.ztr.geo.pFlap)

/-- The recovery reference: the saw queue's tail, else the last cut position (R121). -/
def recoveryReference (p : Part) : Option Nat :=
  match p.acu.saw.getLast? with
  | some x => some x.target
  | none => p.acu.lastCut

/-- The first cut lies at least R_saw beyond the recovery reference (R118, condition 3). -/
def recovered (targets : List Nat) (p : Part) : Bool :=
  match targets.head?, recoveryReference p with
  | some t, some r => decide (p.ztr.geo.rSaw ≤ ahead .C t r) && decide (ahead .C t r < halfModulus .C)
  | _, _ => true

/-- The zone C queue takes the group of n entries whose first stands at a position (R51). -/
def zoneTakes (n first : Nat) (p : Part) : Bool :=
  decide ((p.queue .C).length + n ≤ queueCap .C)
    && (match (p.queue .C).getLast? with
        | none => true
        | some t => precedes .C t.lead first)

/-- The zone C position of the plan's first place. -/
def firstLead (s : Strip) (lead : Nat) : Nat := wrap .C (lead + ((planSpans s).head?.getD (0, 0)).1)

/-- The five conditions of scheduling (R118). -/
def canSchedule (s : Strip) (lead : Nat) (p : Part) : Bool :=
  let targets := sawTargets s lead p
  decide (p.acu.saw.length + targets.length ≤ Config.sawCap)
    && decide (p.ztr.cutList.length < Config.cutListCap)
    && recovered targets p
    && targets.all (fun t => !behind .C t (p.counter .C))
    && zoneTakes (planSpans s).length (firstLead s lead) p

/-- One place of the plan enters zone C: a live piece becomes BELT_C; a void place, or a piece whose slot is found damaged, is entered
untagged (R17, R51, R112). -/
def enterPlace (lead : Nat) (acc : Bool × Part) (e : PlanEntry) : Bool × Part :=
  if acc.1 then acc
  else
    let pos := wrap .C (lead + e.start)
    let join := fun (t : Option Nat) (q : Part) => joinTail .C (makeEntry .C t pos q) q
    match e.tag with
    | none => (false, join none acc.2)
    | some t =>
      match lookup t .ztr acc.2 with
      | (.piece x, q) => (false, join (some t) (writePiece { x with state := .beltC, lead := some pos } q))
      | (.cleared, q) => (true, q)
      | (_, q) => (false, join none q)

/-- A strip's entry at its place in forward order of lead_C (R41). DEDUCED, unsafe: behind every entry that it does not precede, so that a
strip scheduled after reverse motion with its lead_C behind the tail's does not stand at the tail (log entry 25). -/
def insertCut (e : CutEntry) (es : List CutEntry) : List CutEntry := insertForward .C (·.lead) e es

/-- The whole of a scheduling that succeeds (R119). -/
def schedule (s : Strip) (lead : Nat) (p : Part) : Part :=
  let targets := sawTargets s lead p
  let flaps := flapTargets s lead p
  let p := appendSaw targets s.tag p
  let p := writeStrip { s with state := .cutting, leadC := some lead, pendingSaw := targets.length } p
  let p := { p with ztr.cutList := insertCut ⟨s.tag, lead⟩ p.ztr.cutList }
  unlessCleared (((s.plan.map (·.places)).getD []).foldl (enterPlace lead) (false, p)) fun q =>
    let q := flaps.foldl (fun q w => enterWaste w.1 (some w.2) q) q
    if targets.isEmpty then retire (slotOf s.tag) (.strip .cutDone) (leaveCutList s.tag q) else q

/-- A matched strip at the C-eye, by its state (R50). -/
def cEyeStrip (s : Strip) (lead : Nat) (p : Part) : Part :=
  match s.state with
  | .planned => if canSchedule s lead p then schedule s lead p else rejectAndWaste .schedule s lead p
  | .mapped => rejectAndWaste .latePlan s lead p
  | .planning => rejectAndWaste .latePlan s lead p
  | .enteringB => rejectAndWaste .noMap s lead p
  | .scanning => rejectAndWaste .noMap s lead p
  | .rejecting => wasteStrip s.tag lead p
  | .enteringA => rejectAndWaste .noMap s lead p
  | .inA => rejectAndWaste .noMap s lead p
  | .cutting => p

/-! The saw's firing (R124, R125, R121). -/

/-- The saw fires for a strip: SAW driven, the head removed, the last cut position set with its compare, the pending count lowered,
and the strip retired CUT_DONE at 0 (R121, R124, R125). -/
def sawFires (s : Strip) (target : Nat) (p : Part) : Part :=
  let p := { p with
    acu.sawPulse := some p.acu.sawWidth
    acu.saw := p.acu.saw.drop 1
    acu.lastCut := some target }
  let p := arm .lastCut (wrap .C (target + p.ztr.geo.rSaw)) (cancel .lastCut p)
  let p := writeStrip { s with pendingSaw := s.pendingSaw - 1 } p
  if s.pendingSaw ≤ 1 then retire (slotOf s.tag) (.strip .cutDone) (leaveCutList s.tag p) else p

/-- The head's target has been taken: the strip is read, and the saw fires for it (R124). -/
def takeSaw (p : Part) : Part :=
  match p.acu.saw with
  | [] => p
  | e :: _ =>
    match lookup e.tag .acu p with
    | (.strip s, q) => sawFires s e.target q
    | (.piece _, q) => { q with acu.saw := q.acu.saw.drop 1 }
    | (.stale, q) => { q with acu.saw := q.acu.saw.drop 1 }
    | (.damaged, q) => q
    | (.cleared, q) => q

/-- The compare of the last cut position is taken (R121). -/
def dropLastCut (p : Part) : Part := { p with acu.lastCut := none }

end Sys2Proof.Machine
end

