-- ==== Sys2Proof/Machine/PlannerOps.lean ====
section
/-! DEFINITION. The Cut Planner at work: the deadline compare, planning start and plan completion (chapter 4). -/

namespace Sys2Proof.Machine

open Sys2Proof

/-- The deadline compare of a strip is taken (R84). -/
def takeDeadline (tag : Nat) (p : Part) : Part :=
  match lookup tag .cpl p with
  | (.strip s, q) =>
    if s.state = .scanning ∨ s.state = .mapped then (rejectStrip .cpl .noMap s q).2 else q
  | (_, q) => q

/-! Planning start (R86, R94). -/

/-- The grade table of a species (R65). -/
def gradeTable (species : Nat) (p : Part) : List GradeLimit := (p.cpl.grades[species - 1]?).getD []

/-- The snapshot of a plan (R86, Table 5-1). -/
def snapshotOf (s : Strip) (p : Part) : Snapshot :=
  let f := profileOf s.ctx p
  ⟨s.lenB.getD 0, (s.map.map (·.defects)).getD [], f, gradeTable s.species p, p.ztr.geo.rSaw, bonusTable f s.species p⟩

/-- A strip becomes PLANNING and the planner BUSY (R86). -/
def beginPlan (s : Strip) (p : Part) : Part :=
  let job : PlanJob := ⟨s.tag, snapshotOf s p, false⟩
  writeStrip { s with state := .planning } { p with cpl.job := some job }

/-- Take heads of the planner queue until one can be planned; n bounds the heads taken (R86). -/
def takeHeads : Nat → Part → Part
  | 0, p => p
  | n + 1, p =>
    match p.cpl.queue with
    | [] => p
    | t :: rest =>
      match lookup t .cpl p with
      | (.strip s, q) => beginPlan s { q with cpl.queue := rest }
      | (.cleared, q) => q
      | (_, q) => takeHeads n (leavePlanner t q)

/-- Planning starts when the planner is IDLE and its queue is not empty (R86). -/
def startPlanning (p : Part) : Part := if p.cpl.job.isSome then p else takeHeads p.cpl.queue.length p

/-! Completion (R88 to R92). -/

/-- The piece record of a place of the plan (R10). -/
def newPiece (s : Strip) (index : Nat) (pl : Place) (tag : Nat) : Piece where
  tag := tag
  parent := s.tag
  index := index
  ctx := s.ctx
  species := s.species
  cls := pl.cls
  len := pl.len
  foot := pl.foot
  grade := pl.grade
  value := pl.value
  area := pl.area
  start := pl.start
  lead := none
  lug := none
  reserved := none
  bay := none
  serial := none
  unsure := false
  downgraded := false
  state := .planned

/-- Group allocation, one slot after the other in plan order: the tags, and the part (R4, R114). -/
def allocatePieces (s : Strip) : Nat → List Place → Part → List Nat × Part
  | _, [], p => ([], p)
  | k, pl :: rest, p =>
    match allocate s.ctx (fun t => .piece (newPiece s k pl t)) p with
    | none => ([], p)
    | some (t, q) =>
      let r := allocatePieces s (k + 1) rest q
      (t :: r.1, r.2)

/-- The plan as the strip record keeps it (R113). -/
def planOf (places : List Place) (tags : List Nat) : StripPlan :=
  ⟨planValue places, List.zipWith (fun (pl : Place) t => ⟨some t, pl.start, pl.cls, pl.foot⟩) places tags⟩

/-- One allocated piece is attributed to an order (R114, R157). -/
def attributePiece (p : Part) (t : Nat) : Part :=
  match recordAt t p with
  | .piece x => reservePiece x p
  | .strip _ => p
  | .nothing => p

/-- A plan with pieces whose group allocation finds room (R92). DESIGN CHOICE, unsafe: the pieces are attributed one after the other within the
completion, with no event between them, though R158 would let one fall there (log entry 2). -/
def applyPlan (s : Strip) (places : List Place) (p : Part) : Part :=
  let r := allocatePieces s 1 places p
  let p := cancel (.deadline s.tag) (reevaluate false r.2)
  let p := writeStrip { s with state := .planned, plan := some (planOf places r.1) } p
  r.1.foldl attributePiece p

/-- The result of a plan applied to its strip by its piece count (R90 to R92). -/
def applyResult (s : Strip) (places : List Place) (p : Part) : Part :=
  if places = [] then (rejectStrip .cpl .empty { s with plan := some ⟨0, []⟩ } p).2
  else if p.rst.free.length < places.length then (rejectStrip .cpl .noSlots s p).2
  else applyPlan s places p

/-- The completion: discarded or applied, then the planner is IDLE and turns to the queue head (R88). -/
def completePlan (p : Part) : Part :=
  match p.cpl.job with
  | none => p
  | some j =>
    match lookup j.tag .cpl p with
    | (.strip s, q) =>
      let q := if j.discard = false ∧ s.state = .planning then applyResult s (choosePlan j.snapshot) q else q
      startPlanning { q with cpl.job := none }
    | (_, q) => startPlanning { q with cpl.job := none }

end Sys2Proof.Machine
end

