-- ==== Sys2Proof/Machine/SortOps.lean ====
section
/-! DEFINITION. The sort decision, the landing, and the ends of orders: bulk release, completion, cancellation (chapters 8 and 9). -/

namespace Sys2Proof.Machine

open Sys2Proof

/-! The sort decision (R179 to R181). -/

/-- A bay as the sort decision weighs it. -/
structure Candidate where
  bay : BayNo
  slot : OrderNo
  priority : Nat
  fill : Nat
deriving DecidableEq, Repr

/-- Condition 4 of R180: a short piece keeps the bundle within the short cap. -/
def shortFits (x : Piece) (b : Bundle) (o : Order) : Bool :=
  !isShort o x.len || decide ((b.shortLanded + b.shortTransit + x.area) * 100 ≤ o.shortCap * o.target)

/-- Conditions 2 to 4 of R180. -/
def orderTakes (x : Piece) (b : Bundle) (o : Order) : Bool :=
  o.state == .active && o.species == x.species && o.grade == x.grade && o.classes.contains x.len
    && decide (b.landed + b.transit + x.area ≤ o.target + o.tolerance) && shortFits x b o

/-- Conditions 5 and 6 of R180. -/
def kickFits (b : BayNo) (x : Piece) (p : Part) : Bool :=
  decide ((p.kickQueue b).length < Config.kickCap) && !behind .E (kickTarget b (x.lead.getD 0) p) (p.counter .E)

/-- The bay as a candidate for the piece, or none (R180). -/
def candidate (x : Piece) (p : Part) (b : BayNo) : Option Candidate :=
  match (p.bay b).bundle with
  | none => none
  | some u =>
    match p.order u.slot with
    | none => none
    | some o =>
      if (p.bay b).state = .opened && !(p.bay b).held && orderTakes x u o && kickFits b x p then
        some ⟨b, u.slot, o.priority, u.landed + u.transit⟩
      else none

/-- Every candidate, by ascending bay (R180). -/
def candidates (x : Piece) (p : Part) : List Candidate := (List.finRange 8).filterMap (candidate x p)

/-- The first of a list that no later one is better than. -/
def bestOf (isBetter : Candidate → Candidate → Bool) : List Candidate → Option Candidate
  | [] => none
  | c :: cs => some (cs.foldl (fun best d => if isBetter d best then d else best) c)

/-- The fuller bay (R180). -/
def fuller (a b : Candidate) : Bool := decide (b.fill < a.fill)

/-- Higher priority, then the fuller bay (R180). -/
def preferred (a b : Candidate) : Bool := decide (b.priority < a.priority) || (a.priority == b.priority && fuller a b)

/-- The bay chosen: the fullest of the piece's reserved order, else the best of all (R180). -/
def chooseBay (x : Piece) (p : Part) : Option Candidate :=
  match bestOf fuller ((candidates x p).filter fun c => some c.slot == x.reserved) with
  | some c => some c
  | none => bestOf preferred (candidates x p)

/-- A piece becomes UNSORTED, its reservation released first (R159, R179). -/
def unsort (x : Piece) (p : Part) : Part := writePiece { x with state := .unsorted, reserved := none } (release x p)

/-- The bay becomes CLOSING when its bundle has reached the target (R181, step 5). -/
def closeAtTarget (b : BayNo) (p : Part) : Part :=
  match (p.bay b).bundle with
  | none => p
  | some u =>
    match p.order u.slot with
    | none => p
    | some o => if o.target ≤ u.landed + u.transit then p.setBay b { p.bay b with state := .closing } else p

/-- A piece is assigned to a bay (R181). -/
def assign (x : Piece) (b : BayNo) (p : Part) : Part :=
  let p := addTransit b x.area x.len (release x p)
  let p := insertKick b (kickTarget b (x.lead.getD 0) p) x.tag p
  let serial := (p.bay b).bundle.map (·.serial)
  closeAtTarget b (writePiece { x with state := .assigned, reserved := none, bay := some b, serial := serial } p)

/-- The sort decision of a piece in BELT_E (R179). -/
def sortPiece (x : Piece) (p : Part) : Part :=
  if x.unsure || x.grade == .W then unsort x p
  else
    match chooseBay x p with
    | none => unsort x p
    | some c => assign x c.bay p

/-- The sort compare of a piece is taken (R179). -/
def takeSort (tag : Nat) (p : Part) : Part :=
  match lookup tag .bas p with
  | (.piece x, q) => if x.state = .beltE then sortPiece x q else q
  | (_, q) => q

/-! The kick and the landing (R131, R132, R183). -/

/-- A CLOSING bay whose bundle has transit 0 is re-evaluated (R183, step 5). -/
def closeAfterLanding (b : BayNo) (p : Part) : Part :=
  match (p.bay b).bundle with
  | none => p
  | some u => if u.transit = 0 then reevalClosing b p else p

/-- A piece lands in a bay (R183). -/
def land (x : Piece) (b : BayNo) (p : Part) : Part :=
  let p := removeTag .E x.tag (landArea b x.area x.len p)
  closeAfterLanding b (countEvent .landed (retire (slotOf x.tag) (.piece .landed) p))

/-- A kick fires on a piece in ASSIGNED: KICKb driven, the piece landed (R131, R132). -/
def kickFires (b : BayNo) (x : Piece) (p : Part) : Part :=
  land x b { p with acu.kickPulse := p.acu.kickPulse.set b (some p.acu.kickWidth) }

/-- A kick target is taken: the piece is read, the entry removed, and the kick fires for a piece in ASSIGNED (R131). -/
def takeKick (b : BayNo) (tag : Nat) (p : Part) : Part :=
  match lookup tag .acu p with
  | (.piece x, q) =>
    let q := removeKick b tag q
    if x.state = .assigned then kickFires b x q else q
  | (_, q) => removeKick b tag q

/-! Bulk release, completion and cancellation (R160, R166 to R168). -/

/-- The shadow names a piece reserved to the order (R160). -/
def isReservedTo (o : OrderNo) (b : ShadowBody) : Bool :=
  match b with
  | .piece x => x.reserved == some o
  | .strip _ => false
  | .nothing => false

/-- One piece of a bulk release, read as it is reached (R160). -/
def releaseSlot (o : OrderNo) (acc : Bool × Part) (i : SlotNo) : Bool × Part :=
  if acc.1 then acc
  else
    match readSlot i .lif acc.2 with
    | (.cleared, q) => (true, q)
    | (.damaged, q) => (false, q)
    | (.ok, q) =>
      match (q.slot i).contents with
      | .piece x => (false, if x.reserved = some o then release x q else q)
      | .strip _ => (false, q)
      | .nothing => (false, q)

/-- Every reservation made to an order is released, in ascending slot order (R160). The flag says that a read has cleared the line. -/
def bulkRelease (o : OrderNo) (p : Part) : Bool × Part := (slotsWhere (isReservedTo o) p).foldl (releaseSlot o) (false, p)

/-- The order's state set. -/
def setOrderState (o : OrderNo) (x : OrderState) (p : Part) : Part := changeOrder o (fun y => { y with state := x }) p

/-- An ACTIVE order whose bundles retired equals its bundles ordered is completed (R167). -/
def completeIfDone (o : OrderNo) (p : Part) : Bool × Part :=
  match p.order o with
  | none => (false, p)
  | some x =>
    if x.state = .active && x.retired == x.ordered then bulkRelease o (setOrderState o .complete p) else (false, p)

/-- An OPEN bay whose bundle has no area (R189). -/
def emptyOpen (b : Bay) : Bool :=
  match b.bundle with
  | none => false
  | some u => b.state == .opened && u.landed == 0 && u.transit == 0

/-- Bundle opening is tried unless the bay is held (R178). -/
def openUnlessHeld (b : BayNo) (p : Part) : Part := if (p.bay b).held then p else tryOpening p

/-- One bay of a cancelled order: its OPEN bundle is force-closed, or, when it is empty, dismissed, the bay then trying an opening for
other orders (R166 step 3, R178, R187, R189). -/
def closeForCancel (p : Part) (b : BayNo) : Part :=
  if (p.bay b).state = .opened then
    if emptyOpen (p.bay b) then openUnlessHeld b (dismiss b p) else forceClose b p
  else p

/-- The steps of ORDCAN on an ACTIVE order (R166). The flag says that a read has cleared the line. DEDUCED, unsafe: that ends the bulk
release, and steps 3 and 4 are carried out on what the clear left (log entry 16). -/
def cancelOrder (o : OrderNo) (p : Part) : Bool × Part :=
  let r := bulkRelease o (setOrderState o .cancelling p)
  (r.1, settleCancelled o ((baysOf o r.2).foldl closeForCancel r.2))

end Sys2Proof.Machine
end

