-- ==== Sys2Proof/Machine/EyeOps.lean ====
section
/-! DEFINITION. What the Zone Tracker does at counter steps, eye edges, lug pulses and tenoner compares (chapters 2 and 7), each as a
change of the part. -/

namespace Sys2Proof.Machine

open Sys2Proof

/-! Counter steps (R32, R34, R36). -/

/-- The deficit of a zone (R34). -/
def deficit (z : Zone) (p : Part) : Nat := minus z (p.zone z).mark (p.zone z).counter

/-- A forward step of a linear zone: the counter rises, the mark moves with it at deficit 0, and compares are taken (R32, R34, R36). -/
def stepForward (z : Zone) (p : Part) : Part :=
  let r := p.zone z
  let n := wrap z (r.counter + 1)
  takeCompares z n (p.setZone z { r with counter := n, mark := if deficit z p = 0 then n else r.mark })

/-- A reverse step of a linear zone: the counter falls; a deficit above Z_rev marks the zone UNSURE and resets the mark (R32, R34, R35). -/
def stepReverse (z : Zone) (p : Part) : Part :=
  let q := setCounter z (minus z (p.counter z) 1) p
  if q.ztr.geoValid && decide (q.ztr.geo.zRev < deficit z q) then
    let m := markUnsure z q
    m.setZone z { m.zone z with mark := m.counter z }
  else q

/-! Eyes (R37, R38). -/

/-- A leading edge at a position: BLOCKED, with the position kept (R37). -/
def Eye.leading (e : Eye) (pos : Nat) : Eye := { e with blocked := true, lead := pos }

/-- A trailing edge at a position: CLEAR, with the position kept (R37). -/
def Eye.trailing (e : Eye) (pos : Nat) : Eye := { e with blocked := false, trail := pos }

/-- The eye item for an entry (R38). -/
def itemOf : Option Nat → EyeItem
  | none => .untagged
  | some t => .tag t

/-! The A-eye (R42, R43). -/

/-- A strip record made at the A-eye (R7). -/
def newStrip (c : CtxNo) (species lead tag : Nat) : Strip where
  tag := tag
  ctx := c
  species := species
  state := .enteringA
  suspect := false
  untracked := false
  unsure := false
  leadA := some lead
  lenA := none
  leadB := none
  lenB := none
  deadline := none
  map := none
  reject := none
  plan := none
  leadC := none
  pendingSaw := 0

/-- A strip record made at the B-eye for an unmatched capture (R7, R46). -/
def newUntracked (c : CtxNo) (species lead tag : Nat) : Strip :=
  { newStrip c species 0 tag with
    state := .rejecting
    untracked := true
    leadA := none
    leadB := some lead
    reject := some .untracked }

/-- Allocate a strip bound to the active context; none when that context is EMPTY or the free list is (R3, R42, R46, R61). -/
def allocateStrip (mk : CtxNo → Nat → Nat → Strip) (p : Part) : Option Nat × Part :=
  match (p.ctx p.cpl.active).profile with
  | none => (none, p)
  | some f =>
    match allocate p.cpl.active (fun t => .strip (mk p.cpl.active f.species t)) p with
    | none => (none, p)
    | some (t, q) => (some t, reevaluate false q)

/-- The A-eye leading edge as an entry into zone A (R39, R40, R42). -/
def enterLine (p : Part) : Part :=
  let pos := p.counter .A
  match admission .A pos p with
  | .stray => countStray p
  | .full => setFault (.overflow .A) p
  | .join =>
    let r := allocateStrip (fun c sp t => newStrip c sp pos t) p
    let q := if r.1.isNone then countUntracked r.2 else r.2
    let q := joinTail .A (makeEntry .A r.1 pos q) q
    { q with ztr.itemA := itemOf r.1 }

/-- A-eye leading edge (R37, R42). -/
def aEyeLeading (p : Part) : Part :=
  if p.ztr.eyeA.blocked then p
  else
    let p := { p with ztr.eyeA := p.ztr.eyeA.leading (p.counter .A) }
    if p.ztr.geoValid then enterLine p else countUntracked p

/-- L_A written and compared with L_max (R43). -/
def measureA (s : Strip) (trail : Nat) (p : Part) : Part :=
  let len := minus .A trail (s.leadA.getD 0)
  let s := { s with lenA := some len }
  if (profileOf s.ctx p).maxLen < len then (rejectStrip .ztr .suspectLength { s with suspect := true } p).2
  else writeStrip { s with state := if s.state = .enteringA then .inA else s.state } p

/-- The trailing edge applied to the A-eye's eye item (R38, R43). -/
def closeA (p : Part) : Part :=
  match p.ztr.itemA with
  | .tag t =>
    match lookup t .ztr p with
    | (.strip s, q) => measureA s (q.counter .A) q
    | (_, q) => q
  | .untagged => p
  | .none => p

/-- A-eye trailing edge (R37, R38, R43). -/
def aEyeTrailing (p : Part) : Part :=
  if !p.ztr.eyeA.blocked then p
  else
    let p := { p with ztr.eyeA := p.ztr.eyeA.trailing (p.counter .A) }
    if p.ztr.geoValid then
      let q := closeA p
      { q with ztr.itemA := .none }
    else p

/-! The B-eye (R45, R46, R49). -/

/-- A matched strip takes lead_B; in ENTERING_A or IN_A it becomes ENTERING_B (R45). -/
def enterB (s : Strip) (pos : Nat) : Strip :=
  { s with
    leadB := some pos
    state := if s.state = .enteringA ∨ s.state = .inA then .enteringB else s.state }

/-- An entry joins zone B and becomes the B-eye's eye item (R45, R46). -/
def joinB (tag : Option Nat) (pos : Nat) (p : Part) : Part :=
  let q := joinTail .B (makeEntry .B tag pos p) p
  { q with ztr.itemB := itemOf tag }

/-- The zone A head matched at the B-eye (R45); a record found damaged goes on as an entry without a tag (R17). DEDUCED, unsafe: a read that
clears the line ends the capture, with nothing entered (R22; log entry 26). -/
def matchB (e : Entry) (pos : Nat) (p : Part) : Part :=
  let p := popHead .A p
  match e.tag with
  | none => joinB none pos p
  | some t =>
    match lookup t .ztr p with
    | (.strip s, q) => joinB (some t) pos (writeStrip (enterB s pos) q)
    | (.cleared, q) => q
    | (_, q) => joinB none pos q

/-- An unmatched capture at the B-eye: an UNTRACKED strip, or an untagged entry (R46, R61). -/
def untrackedB (pos : Nat) (p : Part) : Part :=
  let r := allocateStrip (fun c sp t => newUntracked c sp pos t) p
  joinB r.1 pos r.2

/-- The A–B capture (R39, R40, R45, R46). -/
def captureB (p : Part) : Part :=
  let pos := p.counter .B
  let hit := matchedHead .A p
  match admission .B pos p with
  | .stray => countStray p
  | .full => overflow .A .B hit.isSome p
  | .join =>
    match hit with
    | some e => matchB e pos p
    | none => untrackedB pos p

/-- B-eye leading edge (R37, R45). -/
def bEyeLeading (p : Part) : Part :=
  if p.ztr.eyeB.blocked then p
  else
    let p := { p with ztr.eyeB := p.ztr.eyeB.leading (p.counter .B) }
    if p.ztr.geoValid then captureB p else p

/-- The difference of two numbers, without sign. -/
def absDiff (a b : Nat) : Nat := (a - b) + (b - a)

/-- The two measured lengths agree within L_tol; an absent L_A agrees with nothing (R49). -/
def lengthsAgree (s : Strip) (len : Nat) (p : Part) : Bool :=
  match s.lenA with
  | none => false
  | some a => decide (absDiff len a ≤ p.ztr.geo.lTol)

/-- STRIPSCAN (R75). -/
def stripscan (tag len : Nat) : Notice := ⟨.role .scanner, codeSTRIPSCAN, [.u16 tag, .u32 len]⟩

/-- The strip becomes SCANNING: its deadline compare armed, STRIPSCAN sent (R49, R75). -/
def offerScan (s : Strip) (len : Nat) (p : Part) : Part :=
  let d := wrap .B (s.leadB.getD 0 + p.ztr.geo.dDeadline)
  let p := arm (.deadline s.tag) d (writeStrip { s with state := .scanning, deadline := some d } p)
  compose (stripscan s.tag len) p

/-- L_B written, and what follows by state (R49). -/
def measureB (s : Strip) (trail : Nat) (p : Part) : Part :=
  let len := minus .B trail (s.leadB.getD 0)
  let s := { s with lenB := some len }
  if s.state = .enteringB then
    if lengthsAgree s len p then offerScan s len p
    else (rejectStrip .ztr .suspectLength { s with suspect := true } p).2
  else writeStrip s p

/-- The trailing edge applied to the B-eye's eye item (R38, R49). -/
def closeB (p : Part) : Part :=
  match p.ztr.itemB with
  | .tag t =>
    match lookup t .ztr p with
    | (.strip s, q) => measureB s (q.counter .B) q
    | (_, q) => q
  | .untagged => p
  | .none => p

/-- B-eye trailing edge (R37, R38, R49). -/
def bEyeTrailing (p : Part) : Part :=
  if !p.ztr.eyeB.blocked then p
  else
    let p := { p with ztr.eyeB := p.ztr.eyeB.trailing (p.counter .B) }
    if p.ztr.geoValid then
      let q := closeB p
      { q with ztr.itemB := .none }
    else p

/-! The C-eye (R50, R51). -/

/-- The B–C capture: the item leaves zone B and is scheduled or wasted whole (R50). DEDUCED, unsafe: a read that clears the line ends the
capture, with nothing wasted (R22; log entry 26). -/
def captureC (p : Part) : Part :=
  let lead := p.counter .C
  match matchedHead .B p with
  | none => wasteWhole lead none p
  | some e =>
    let p := popHead .B p
    match e.tag with
    | none => wasteWhole lead none p
    | some t =>
      match lookup t .ztr p with
      | (.strip s, q) => cEyeStrip s lead q
      | (.cleared, q) => q
      | (_, q) => wasteWhole lead none q

/-- C-eye leading edge (R37, R50). -/
def cEyeLeading (p : Part) : Part :=
  if p.ztr.eyeC.blocked then p
  else
    let p := { p with ztr.eyeC := p.ztr.eyeC.leading (p.counter .C) }
    if p.ztr.geoValid then captureC p else p

/-- C-eye trailing edge: it closes the open-ended interval that the mark names (R37, R51, R123). -/
def cEyeTrailing (p : Part) : Part :=
  if !p.ztr.eyeC.blocked then p
  else
    let p := { p with ztr.eyeC := p.ztr.eyeC.trailing (p.counter .C) }
    if p.ztr.geoValid then
      closeOpenEnded (minus .C (p.counter .C + p.ztr.geo.dFlap) p.ztr.geo.pFlap) p
    else p

/-! The load point and the tenoner (R52, R138 to R141). -/

/-- An entry joins the lug table; a tagged one has its tenoner compare armed (R137, R138). -/
def joinD (tag : Option Nat) (lug : Nat) (p : Part) : Part :=
  let q := joinTail .D (makeEntry .D tag lug p) p
  if tag.isSome then arm (.tenoner lug) (wrap .D (lug + q.ztr.geo.nTen)) q else q

/-- The zone C head matched at the load point (R52, R138). DEDUCED, unsafe: the lead position becomes the lug number with the
zone (log entry 20); a read that clears the line ends the capture, with nothing entered (R22; log entry 26). -/
def matchD (e : Entry) (lug : Nat) (p : Part) : Part :=
  let p := popHead .C p
  match e.tag with
  | none => joinD none lug p
  | some t =>
    match lookup t .ztr p with
    | (.piece x, q) => joinD (some t) lug (writePiece { x with state := .lug, lug := some lug, lead := some lug } q)
    | (.cleared, q) => q
    | (_, q) => joinD none lug q

/-- The C–D capture (R40, R52, R138, R139). -/
def captureD (p : Part) : Part :=
  let lug := p.counter .D
  let hit := matchedHead .C p
  match admission .D lug p with
  | .stray => countStray p
  | .full => overflow .C .D hit.isSome p
  | .join =>
    match hit with
    | some e => matchD e lug p
    | none => joinD none lug p

/-- A lug pulse: the counter advances, compares are taken, the load sensor is sampled, and an occupied lug is the C–D capture (R33, R52,
R138). -/
def stepLug (occupied : Bool) (p : Part) : Part :=
  let n := wrap .D (p.counter .D + 1)
  let p := takeCompares .D n (setCounter .D n p)
  let p := { p with ztr.load := ⟨occupied, n⟩ }
  if occupied && p.ztr.geoValid then captureD p else p

/-- LUGTEN (R141). DESIGN CHOICE, unsafe: the lug number is a number of two bytes, not a position of four (log entry 7). -/
def lugten (x : Piece) (lug : Nat) (p : Part) : Notice :=
  ⟨.role .endmatcher, codeLUGTEN,
    [.u16 x.tag, .u16 lug, .u16 x.len, .u16 (profileOf x.ctx p).trim, .u8 (profileOf x.ctx p).code]⟩

/-- A lug table entry's tenoner status set (R141). -/
def setTenStatus (lug : Nat) (t : TenStatus) (p : Part) : Part :=
  p.setQueue .D ((p.queue .D).map fun e => if e.lead = lug then { e with status := t } else e)

/-- The tenoner compare of a loaded lug is taken (R141). -/
def takeTenoner (lug : Nat) (p : Part) : Part :=
  match (p.queue .D).find? fun e => e.lead == lug with
  | none => p
  | some e =>
    match e.tag with
    | none => p
    | some t =>
      match lookup t .ztr p with
      | (.piece x, q) =>
        if x.state = .lug then
          if (enrolledLink .endmatcher q).isSome then compose (lugten x lug q) (setTenStatus lug .sent q)
          else setTenStatus lug .unsent q
        else q
      | (_, q) => q

/-! The sorter (R53, R54, R142). -/

/-- An entry joins zone E; a tagged one has its sort compare armed (R53). -/
def joinE (tag : Option Nat) (pos : Nat) (p : Part) : Part :=
  let q := joinTail .E (makeEntry .E tag pos p) p
  match tag with
  | none => q
  | some t => arm (.sort t) (wrap .E (pos + q.ztr.geo.dSort)) q

/-- The lug table head matched at the E-eye (R53, R142). DEDUCED, unsafe: a read that clears the line ends the capture, with nothing entered
(R22; log entry 26). -/
def matchE (e : Entry) (pos : Nat) (p : Part) : Part :=
  let p := popHead .D p
  match e.tag with
  | none => joinE none pos p
  | some t =>
    match lookup t .ztr p with
    | (.piece x, q) => joinE (some t) pos (writePiece { x with state := .beltE, lead := some pos } q)
    | (.cleared, q) => q
    | (_, q) => joinE none pos q

/-- The D–E capture (R39, R40, R53). -/
def captureE (p : Part) : Part :=
  let pos := p.counter .E
  let hit := matchedHead .D p
  match admission .E pos p with
  | .stray => countStray p
  | .full => overflow .D .E hit.isSome p
  | .join =>
    match hit with
    | some e => matchE e pos p
    | none => joinE none pos p

/-- E-eye leading edge (R37, R53). -/
def eEyeLeading (p : Part) : Part :=
  if p.ztr.eyeE.blocked then p
  else
    let p := { p with ztr.eyeE := p.ztr.eyeE.leading (p.counter .E) }
    if p.ztr.geoValid then captureE p else p

/-- The E–run-off capture (R54). -/
def captureX (p : Part) : Part :=
  match matchedHead .E p with
  | none => countStray p
  | some e =>
    let p := popHead .E p
    match e.tag with
    | none => p
    | some t =>
      match lookup t .ztr p with
      | (.piece x, q) => retire (slotOf t) (.piece .endBin) (undoShare x q)
      | (_, q) => q

/-- End eye leading edge (R37, R54). -/
def endEyeLeading (p : Part) : Part :=
  if p.ztr.eyeX.blocked then p
  else
    let p := { p with ztr.eyeX := p.ztr.eyeX.leading (p.counter .E) }
    if p.ztr.geoValid then captureX p else p

/-- Trailing edge of the E-eye or the end eye: state and position only (R37). -/
def sorterTrailing (eye : SorterEye) (p : Part) : Part :=
  match eye with
  | .eEye =>
    if p.ztr.eyeE.blocked then { p with ztr.eyeE := p.ztr.eyeE.trailing (p.counter .E) } else p
  | .endEye =>
    if p.ztr.eyeX.blocked then { p with ztr.eyeX := p.ztr.eyeX.trailing (p.counter .E) } else p

end Sys2Proof.Machine
end

