-- ==== Sys2Proof/Machine/LinkOps.lean ====
section
/-! DEFINITION. The Link Interface: signal, ANNC, link reset, reception of frames, and the service of requests (chapter 11). -/

namespace Sys2Proof.Machine

open Sys2Proof

/-! ANNC and signal (R207, R209, R211). -/

/-- A link state's place in its table: Table 11-2 for a station link, R211 for link 0. -/
def linkStateNo : LinkState → Nat
  | .down => 0
  | .waiting => 1
  | .enrolled => 2
  | .holding => 3
  | .incompatible => 4
  | .up => 1

/-- A link state's field; INCOMPATIBLE is third of link 0's three (R202, R211). -/
def linkStateItem (l : LinkNo) (s : LinkState) : Item := .u8 (if l = 0 ∧ s = .incompatible then 2 else linkStateNo s)

/-- A role's field (R202, R208). -/
def roleItem (r : Role) : Item := .u8 r.ctorIdx

/-- ANNC's fields: identity, link, state after the notice, role and serial of a link in HOLDING, hold time (R207). -/
def anncItems (l : LinkNo) (p : Part) : List Item :=
  let x := p.link l
  let held := x.state == .holding
  [.u32 Config.identity, .u8 l.val, linkStateItem l x.state]
    ++ optItems (if held then x.role.map fun r => [roleItem r] else none)
    ++ optItems (if held then some [.u32 x.serial] else none)
    ++ [.u16 p.lif.hold]

/-- ANNC on a link (R207). -/
def announce (l : LinkNo) (p : Part) : Part := sendNotice l codeANNC (anncItems l p) p

/-- A link in DOWN with signal takes signal up: link 0 becomes UP, a station link WAITING, and ANNC is sent (R207, R211). -/
def signalUp (l : LinkNo) (p : Part) : Part :=
  announce l (p.setLink l { p.link l with state := if l = 0 then .up else .waiting })

/-- A link gains signal (R207, R209, R211). -/
def gainSignal (l : LinkNo) (p : Part) : Part :=
  if (p.link l).signal then p
  else
    let p := p.setLink l { p.link l with signal := true }
    match (p.link l).state with
    | .down => signalUp l p
    | .holding => announce l p
    | .waiting => p
    | .enrolled => p
    | .incompatible => p
    | .up => p

/-! Link reset (R192, R210). -/

/-- Every STACKER hold flag is cleared; IDLE bays left unheld take part in one opening attempt (R192). DEDUCED, unsafe: which raises the
bundles opened of an order, where R173 has no link reset change the Order Table (log entry 31). -/
def clearStackerHolds (p : Part) : Part :=
  let freed := (List.finRange 8).any fun b => (p.bay b).staHold && !(p.bay b).supHold && (p.bay b).state == .idle
  let q := { p with bas := p.bas.map fun b => { b with staHold := false } }
  if freed then tryOpening q else q

/-- A LINE CLEAR reply owed on link 0 is dropped with link 0's lists (R206). -/
def dropOwedReply (l : LinkNo) (p : Part) : Part :=
  if l = 0 then { p with lif.clear := p.lif.clear.map fun c => { c with reply := none } } else p

/-- Role, serial and tool list vacated, hold timer stopped, lists emptied, and the link left in a state; the blocks act on the vacated
role (R210). -/
def vacate (l : LinkNo) (s : LinkState) (p : Part) : Part :=
  let wasStacker := (p.link l).role == some .stacker
  let p := dropOwedReply l (p.setLink l { p.link l with
    state := s, role := none, serial := 0, tools := [], holdTimer := none, requests := [], transmit := [] })
  reevaluate false (if wasStacker then clearStackerHolds p else p)

/-- Link reset: vacated and DOWN, and with signal present signal up is taken at once (R209, R210). -/
def linkReset (l : LinkNo) (p : Part) : Part :=
  let p := vacate l .down p
  if (p.link l).signal then signalUp l p else p

/-- Entry to INCOMPATIBLE (R204, R210, R211). -/
def goIncompatible (l : LinkNo) (p : Part) : Part := vacate l .incompatible p

/-- The frame error counter rises (R203 to R205). -/
def frameError (l : LinkNo) (p : Part) : Part := p.setLink l { p.link l with frameErrors := bump (p.link l).frameErrors }

/-- What signal loss makes of a link's state (Table 11-2, R209, R211). -/
def lossState (l : LinkNo) (s : LinkState) : LinkState :=
  match s with
  | .down => .down
  | .waiting => .down
  | .enrolled => .holding
  | .holding => .holding
  | .incompatible => if l = 0 then .down else .incompatible
  | .up => .down

/-- The hold timer expires (R209). -/
def holdExpiry (l : LinkNo) (p : Part) : Part := if (p.link l).holdTimer.isSome then linkReset l p else p

/-! Requests (R205, R212). -/

/-- Who sends: link 0, or a station link by its role (R212). -/
inductive Sender where
  | supervisor
  | station (r : Option Role)
deriving DecidableEq, Repr

/-- The sender on a link. -/
def senderOf (l : LinkNo) (p : Part) : Sender := if l = 0 then .supervisor else .station (p.link l).role

def codeENROL : Nat := 0x01

/-- The request codes the supervisor may send (Tables 11-1 and 11-3). -/
def supervisorCodes : List Nat :=
  [0x10, 0x11, 0x12, 0x18, 0x19, 0x1A, 0x20, 0x21, 0x22, 0x23, 0x24, 0x38, 0x39, 0x3A, 0x3B, 0x3C, 0x40, 0x41, 0x42, 0x48, 0x49,
    0x50, 0x51, 0x52]

/-- The request codes a role may send beside ENROL (Tables 11-1 and 11-3). -/
def roleCodes : Role → List Nat
  | .moulder => [0x10]
  | .scanner => [0x10, 0x28, 0x29]
  | .endmatcher => [0x10, 0x30]
  | .stacker => [0x10, 0x40, 0x41]
  | .labeller => [0x10, 0x48, 0x49]

/-- Table 11-3. -/
def permitted (code : Nat) : Sender → Bool
  | .supervisor => supervisorCodes.contains code
  | .station none => code == codeENROL
  | .station (some r) => code == codeENROL || (roleCodes r).contains code

/-- The station link is not ENROLLED and the request is not ENROL (R212, check 2). -/
def notEnrolled (l : LinkNo) (code : Nat) (p : Part) : Bool :=
  l != 0 && code != codeENROL && (p.link l).state != .enrolled

/-- The refusal of a listed request before its block sees it (R212, checks 2 and 3). -/
def refusal (l : LinkNo) (code : Nat) (p : Part) : Option Status :=
  if notEnrolled l code p then some .notEnrolled
  else if permitted code (senderOf l p) then none else some .wrongRole

/-- The link hears: it has signal and is neither DOWN nor INCOMPATIBLE (Table 11-2, R211). -/
def hears (l : LinkNo) (p : Part) : Bool :=
  (p.link l).signal && (p.link l).state != .down && (p.link l).state != .incompatible

/-- The LINCLR in service on link 0 still waits for its reply (R57, R205). -/
def clearHolds (l : LinkNo) (p : Part) : Bool :=
  l == 0 && (match p.lif.clear with
    | none => false
    | some c => c.reply.isSome)

/-- The head of a link's list can be taken: a reply finds room, and no request is in service (R205, R206). -/
def canTake (l : LinkNo) (p : Part) : Bool :=
  decide ((p.link l).transmit.length < Config.transmitCap) && !clearHolds l p

/-- A reply: its status, then its fields (R205). -/
structure Reply where
  status : Status
  fields : List Item
deriving DecidableEq, Repr

/-- A reply composed on a link (R205, R206). -/
def composeReply (l : LinkNo) (code number : Nat) (r : Reply) (p : Part) : Part :=
  transmit l ⟨.reply, code, number, .u8 (statusCode r.status) :: r.fields⟩ p

/-- The head of a link's request list leaves it. -/
def popRequest (l : LinkNo) (p : Part) : Part := p.setLink l { p.link l with requests := (p.link l).requests.drop 1 }

/-- A waiting request that the Link Interface answers itself (R212): the status, or none for one that a block answers. -/
def ownAnswer (l : LinkNo) (p : Part) : Waiting → Option (Nat × Nat × Status)
  | .request _ => none
  | .unlisted code number => some (code, number, .range)
  | .malformed code number => some (code, number, (refusal l code p).getD .range)

/-- The heads that the Link Interface answers itself, one after the other (R205, R212). -/
def answerHeads (l : LinkNo) : Nat → Part → Part
  | 0, p => p
  | n + 1, p =>
    match (p.link l).requests with
    | [] => p
    | w :: _ =>
      match ownAnswer l p w with
      | none => p
      | some (code, number, st) =>
        if hears l p && canTake l p then answerHeads l n (composeReply l code number ⟨st, []⟩ (popRequest l p)) else p

/-- The heads of every link that the Link Interface answers itself. -/
def answerAll (p : Part) : Part := (List.finRange 7).foldl (fun q l => answerHeads l Config.requestCap q) p

/-- A request joins a link's list, or is discarded when 8 stand in it (R205). -/
def joinRequests (l : LinkNo) (w : Waiting) (p : Part) : Part :=
  let x := p.link l
  if x.requests.length < Config.requestCap then p.setLink l { x with requests := x.requests ++ [w] } else frameError l p

/-- The notices that a request raised, composed after its reply in their order (R171, R197, R206, R213). -/
def flushDeferred (p : Part) : Part :=
  composeAll (noticeOrder (p.lif.deferred.getD [])) { p with lif.deferred := none }

/-- Serve a request: its block's answer, then the reply. The notices that follow the reply are held until the command's end. -/
def serve (l : LinkNo) (code number : Nat) (body : Part → Reply × Part) (p : Part) : Part :=
  match refusal l code p with
  | some st => composeReply l code number ⟨st, []⟩ p
  | none =>
    let r := body { p with lif.deferred := some [] }
    composeReply l code number r.1 (reevaluate false r.2)

/-- What becomes of a request command on its link (R205; log entry 13). -/
inductive Arrival where
  /-- The link does not hear, or the request waits on at the head. -/
  | nothing
  /-- It is taken from the head of the list. -/
  | head
  /-- It is received and taken at once, the list being empty. -/
  | fresh
  /-- It is received behind others, and waits. -/
  | behind
deriving DecidableEq, Repr

/-- The case of a request command (R205; log entry 13). -/
def arrival (l : LinkNo) (w : Waiting) (p : Part) : Arrival :=
  if !hears l p then .nothing
  else
    match (p.link l).requests with
    | [] => if canTake l p then .fresh else .behind
    | v :: _ => if v = w then (if canTake l p then .head else .nothing) else .behind

/-- A request is taken, or waits (R205, R206, R212). -/
def takeRequest (l : LinkNo) (code number : Nat) (i : Instr) (body : Part → Reply × Part) (p : Part) : Part :=
  match arrival l (.request i) p with
  | .nothing => p
  | .head => serve l code number body (popRequest l p)
  | .fresh => serve l code number body p
  | .behind => joinRequests l (.request i) p

/-! Reception of frames (R203, R204). -/

/-- A whole frame with a good check is treated by its kind (R204); in INCOMPATIBLE it is discarded (Table 11-2, R211). -/
def treatFrame (l : LinkNo) (kind code number : Nat) (payload : List Byte) (p : Part) : Part :=
  if (p.link l).state = .incompatible then p
  else if kind = 1 then joinRequests l (decodeRequest l code number payload) p
  else if kind = 3 then goIncompatible l (frameError l p)
  else frameError l p

/-- The link's receiver takes bytes: it has signal and is not DOWN. In INCOMPATIBLE it goes on finding frames, and a frame that R203
discards counts there too (R203, Table 11-2). -/
def receives (l : LinkNo) (p : Part) : Bool := (p.link l).signal && (p.link l).state != .down

/-- Receive the bytes held by a link; n bounds the frames (R203, R204). -/
def scan (l : LinkNo) : Nat → List Byte → Part → Part
  | 0, _, p => p
  | n + 1, bytes, p =>
    if !receives l p then p
    else
      match receive bytes with
      | .searching => p.setLink l { p.link l with rx := [] }
      | .partly held => p.setLink l { p.link l with rx := held }
      | .bad rest => scan l n rest (frameError l p)
      | .whole kind code number payload rest => scan l n rest (treatFrame l kind code number payload p)

/-- Bytes arrive on a link (R203). -/
def receiveBytes (l : LinkNo) (bytes : List Byte) (p : Part) : Part :=
  let all := (p.link l).rx ++ bytes
  scan l (all.length + 1) all p

/-- The frame under way is discarded, and the search goes on after its marker in the bytes held (R203). -/
def discardFrame (l : LinkNo) (p : Part) : Part :=
  match (p.link l).rx with
  | [] => p
  | _ :: rest => scan l (rest.length + 1) rest (frameError l p)

/-- Frames under way are discarded until none is: what ended the reception of one ended that of a part frame found behind its marker, whose
bytes stop at the same place; n bounds the discards (R203; log entry 19). -/
def discardHeld (l : LinkNo) : Nat → Part → Part
  | 0, p => p
  | n + 1, p => if (p.link l).rx = [] ∨ receives l p = false then p else discardHeld l n (discardFrame l p)

/-- The receiver of a link discards all that it holds of frames (R203). -/
def dropReception (l : LinkNo) (p : Part) : Part := discardHeld l (p.link l).rx.length p

/-- More than 1 ms has passed behind the last byte held, and so between two bytes of every frame under way (R203). -/
def byteTimeout (l : LinkNo) (p : Part) : Part := dropReception l p

/-- Signal loss: the lists are emptied, an ENROLLED link becomes HOLDING with its timer started; a hold time of 0 makes the expiry follow
at once (R203, R206, R207, R209, R211). -/
def loseSignal (l : LinkNo) (p : Part) : Part :=
  if !(p.link l).signal then p
  else
    let p := dropReception l p
    let x := p.link l
    let starts := x.state == .enrolled
    let p := dropOwedReply l (p.setLink l { x with
      signal := false
      state := lossState l x.state
      holdTimer := if starts then some p.lif.hold else x.holdTimer
      rx := []
      requests := []
      transmit := [] })
    let p := reevaluate false p
    if starts && p.lif.hold == 0 then linkReset l p else p

/-! LINE CLEAR's completion (R57, R197, R213). -/

/-- The reply to LINCLR, when one is still owed (R57). -/
def replyClear (c : Clear) (p : Part) : Part :=
  match c.reply with
  | none => p
  | some number => composeReply 0 0x19 number ⟨.done, []⟩ (popRequest 0 p)

/-- The LINSTA of a LINE CLEAR: always of an automatic one; of a requested one when PERMIT or LINE FAULT differs from before it (R213). -/
def reportClear (c : Clear) (p : Part) : Part :=
  if c.auto || p.cpl.permit != c.permit || p.ztr.fault != c.fault then compose (linsta p) p else p

/-- Recompute the Cut Planner's conditions without a notice of its own (R70, R72, R213). -/
def recompute (p : Part) : Part :=
  { p with
    cpl.runnable := runnableCtx p.cpl.active p
    cpl.report := permitReport p
    cpl.permit := permitNow p }

/-- A LINE CLEAR has been carried out in every block: DOUBLE_DAMAGE is set after an automatic one, PERMIT re-evaluated, then the reply,
the BDLRDY notices and LINSTA (R22, R57, R71, R73, R197, R213). A LINE FAULT that stands keeps its cause (R56). -/
def finishClear (p : Part) : Part :=
  match p.lif.clear with
  | none => p
  | some c =>
    let p := { p with lif.clear := none }
    let p := if c.auto && p.ztr.fault.isNone then { p with ztr.fault := some .doubleDamage } else p
    reportClear c (composeAll c.ready (replyClear c (recompute p)))

end Sys2Proof.Machine
end

