-- ==== Sys2Proof/Machine/Run.lean ====
section
/-! DEFINITION. How a command runs: compares taken at once are carried out before it ends (R36, R117), requests that the Link Interface
answers itself are answered, and PERMIT stands at its conditions when it ends. -/

namespace Sys2Proof.Machine

open Sys2Proof

/-- The saw's target is taken: the head's fires; one behind the head waits for its own firing (R117, R124). -/
def takeSawTarget (target : Nat) (p : Part) : Part :=
  match p.acu.saw.head? with
  | none => p
  | some e => if e.target = target then takeSaw p else { p with ztr.due := p.ztr.due ++ [.saw target] }

/-- What the taking of a compare or target starts (R36, R116). -/
def takeEvent (e : Event) (p : Part) : Part :=
  match e with
  | .expiry z => loseHead z p
  | .deadline t => takeDeadline t p
  | .sort t => takeSort t p
  | .tenoner l => takeTenoner l p
  | .lastCut => dropLastCut p
  | .saw t => takeSawTarget t p
  | .wasteOpen t => takeOpenTarget t p
  | .wasteShut t => takeShutTarget t p
  | .kick b t => takeKick b t p

/-- The first compare taken at once is carried out. -/
def settleOne (p : Part) : Part :=
  match p.ztr.atOnce with
  | [] => p
  | e :: rest => takeEvent e { p with ztr.atOnce := rest }

/-- The compares taken at once are carried out, in the order they were armed; n bounds them (R36, R117). -/
def settle : Nat → Part → Part
  | 0, p => p
  | n + 1, p => if p.ztr.atOnce.isEmpty then p else settle n (settleOne p)

/-- A compare that a counter step has taken is carried out as its own step; one that is not due is no event (R36, R116). -/
def takeDue (e : Event) (p : Part) : Part :=
  if p.ztr.due.contains e then takeEvent e { p with ztr.due := p.ztr.due.filter fun x => x != e } else p

/-- How many compares taken at once a command carries out at most. -/
def settleFuel : Nat := 1024

/-- Every compare taken at once is carried out; were any left over, they would wait for steps of their own (R36). -/
def settleAll (p : Part) : Part :=
  let q := settle settleFuel p
  { q with
    ztr.due := q.ztr.due ++ q.ztr.atOnce
    ztr.atOnce := [] }

/-- The end of every command: compares taken at once, the notices that follow a reply, the Link Interface's own answers, and PERMIT
(R36, R70, R171, R197, R212, R213). -/
def finish (p : Part) : Part := reevaluate false (answerAll (flushDeferred (settleAll p)))

/-- Run a command on the part; nothing runs while the reset input is asserted (11.10; R217). -/
def run (f : Part → Part) (p : Part) : Part := if p.inReset then p else finish (f p)

end Sys2Proof.Machine
end

