-- ==== Sys2Proof/Machine/RecordRequests.lean ====
section
/-! DEFINITION. The requests of the Record Store and of the Zone Tracker (R25, R28 to R30, R55, R57, R58, R136, R150). -/

namespace Sys2Proof.Machine

open Sys2Proof

/-! RECRD (R28). -/

/-- An optional position (R202). -/
def optPos (x : Option Nat) : List Item := optItems (x.map fun n => [.u32 n])

/-- An optional two-byte number (R202). -/
def opt16 (x : Option Nat) : List Item := optItems (x.map fun n => [.u16 n])

/-- A defect's fields (Table 1-1, Table 4-2). -/
def defectItems (d : Defect) : List Item := [.u16 d.start, .u16 d.stop, .u8 d.cls, .u16 d.size]

/-- The defect map's fields (Table 1-1). -/
def mapItems (m : DefectMap) : List Item := listItems (m.defects.map defectItems) ++ [flagItem m.overflow]

/-- A plan entry's fields (R113). -/
def planEntryItems (e : PlanEntry) : List Item := [tagItem e.tag, .u16 e.start, .u8 e.cls, .u16 e.foot]

/-- The plan's fields (R113). -/
def planItems (x : StripPlan) : List Item := .u16 x.value :: listItems (x.places.map planEntryItems)

/-- Every field of a strip record, in the order of Table 1-1. -/
def stripItems (s : Strip) : List Item :=
  [.u16 s.tag, .u8 0, .u8 s.ctx.val, .u8 s.species, .u8 s.state.ctorIdx, flagItem s.suspect, flagItem s.untracked,
      flagItem s.unsure]
    ++ optPos s.leadA ++ optPos s.lenA ++ optPos s.leadB ++ optPos s.lenB ++ optPos s.deadline
    ++ optItems (s.map.map mapItems) ++ optItems (s.reject.map fun c => [.u8 c.ctorIdx])
    ++ optItems (s.plan.map planItems) ++ optPos s.leadC ++ [.u8 s.pendingSaw]

/-- Every field of a piece record, in the order of Table 1-5a. -/
def pieceItems (x : Piece) : List Item :=
  [.u16 x.tag, .u8 1, .u16 x.parent, .u8 x.index, .u8 x.ctx.val, .u8 x.species, .u8 x.cls, .u16 x.len, .u16 x.foot,
      .u8 x.grade.ctorIdx, .u16 x.value, .u32 x.area, .u16 x.start]
    ++ optPos x.lead ++ opt16 x.lug ++ optItems (x.reserved.map fun o => [.u8 o.val])
    ++ optItems (x.bay.map fun b => [.u8 (b.val + 1)]) ++ opt16 x.serial
    ++ [flagItem x.unsure, flagItem x.downgraded, .u8 x.state.ctorIdx]

/-- RECRD taken (R28). -/
def serveRecrd (tag : Nat) (p : Part) : Reply × Part :=
  match lookup tag .lif p with
  | (.strip s, q) => (⟨.done, stripItems s⟩, q)
  | (.piece x, q) => (⟨.done, pieceItems x⟩, q)
  | (.stale, q) => (⟨.stale, []⟩, q)
  | (.damaged, q) => (⟨.damaged, []⟩, q)
  | (.cleared, q) => (⟨.damaged, []⟩, q)

/-- RECRD. -/
def execRecrd (link : LinkNo) (number tag : Nat) (s : State) : Host.Outcome State Fault Refusal :=
  next (run (takeRequest link 0x10 number (.recrd link number tag) (serveRecrd tag))) s

/-! RECRET (R29, R30). -/

/-- What a request answers, by whether a read of its own is answered DAMAGED (R17, R22). -/
def doneUnlessDamaged (damaged : Bool) (fields : List Item) : Reply := if damaged then ⟨.damaged, []⟩ else ⟨.done, fields⟩

/-- The steps of R29 by the strip's state, before its own retirement. -/
def removeByState (s : Strip) (p : Part) : Bool × Part :=
  match s.state with
  | .mapped => (false, cancel (.deadline s.tag) (leavePlanner s.tag p))
  | .planning => (false, cancel (.deadline s.tag) p)
  | .scanning => (false, cancel (.deadline s.tag) p)
  | .enteringB => (false, cancel (.deadline s.tag) p)
  | .planned => endPieces .lif .removed [.planned] s p
  | .cutting => endPieces .lif .removed [.planned, .beltC] s (cancelSaw s.tag p)
  | .enteringA => (false, p)
  | .inA => (false, p)
  | .rejecting => (false, p)

/-- A strip is removed from the line (R29). -/
def removeStrip (s : Strip) (p : Part) : Bool × Part :=
  thenStep (removeByState s p) fun q =>
    (false, retire (slotOf s.tag) (.strip .removed) (leaveCutList s.tag (removeTag .B s.tag (removeTag .A s.tag q))))

/-- A piece's entry leaves the queue of its current zone (R30). -/
def removePieceEntry (x : Piece) (p : Part) : Part :=
  match pieceZone x.state with
  | none => p
  | some z => removeTag z x.tag p

/-- A piece is removed from the line; one in PLANNED leaves a void place in its parent's plan (R20, R30). DEDUCED, unsafe: where the
parent's read finds it damaged, its condemnation leaves this piece out, which is retired REMOVED, and the answer is DONE (log entry 16). -/
def removePiece (x : Piece) (p : Part) : Bool × Part :=
  let q := removePieceEntry x (undoShare x p)
  thenStep (if x.state = .planned then voidPlace .lif x.tag x.parent (some (slotOf x.tag)) q else (false, q)) fun r =>
    (false, retire (slotOf x.tag) (.piece .removed) r)

/-- RECRET taken (R29, R30). -/
def serveRecret (tag : Nat) (p : Part) : Reply × Part :=
  match lookup tag .lif p with
  | (.strip s, q) => let r := removeStrip s q
    (doneUnlessDamaged r.1 [], r.2)
  | (.piece x, q) => let r := removePiece x q
    (doneUnlessDamaged r.1 [], r.2)
  | (.stale, q) => (⟨.stale, []⟩, q)
  | (.damaged, q) => (⟨.damaged, []⟩, q)
  | (.cleared, q) => (⟨.damaged, []⟩, q)

/-- RECRET. -/
def execRecret (link : LinkNo) (number tag : Nat) (s : State) : Host.Outcome State Fault Refusal :=
  next (run (takeRequest link 0x11 number (.recret link number tag) (serveRecret tag))) s

/-! ERRRD (R25). -/

/-- ERRRD taken: the capture and OVERRUN reported, then emptied and cleared (R25). -/
def serveErrrd (p : Part) : Reply × Part :=
  (⟨.done, optItems (p.rst.capture.map captureItems) ++ [flagItem p.rst.overrun]⟩,
    { p with
      rst.capture := none
      rst.overrun := false })

/-- ERRRD. -/
def execErrrd (link : LinkNo) (number : Nat) (s : State) : Host.Outcome State Fault Refusal :=
  next (run (takeRequest link 0x12 number (.errrd link number) serveErrrd)) s

/-! GEOLD (R55). -/

/-- A number within a range. -/
def within (lo hi n : Nat) : Bool := decide (lo ≤ n) && decide (n ≤ hi)

/-- Every field of the geometry record in its range (Table 2-6). -/
def Geometry.inRange (g : Geometry) : Bool :=
  [g.gAB, g.gBC, g.gCD, g.gEX].all (within 20001 2000000) && [g.wAB, g.wBC, g.wCD, g.wEX].all (within 10 20000)
    && within 1 200 g.nTen && within 2 255 g.nDis && within 0 4 g.wDE && within 0 5000 g.lTol && within 100 100000 g.zRev
    && within 1000 1000000 g.dDeadline && [g.dSaw, g.dFlap].all (within 1000 200000)
    && [g.pSaw, g.pFlap].all (within 0 5000) && within 100 10000 g.rSaw && within 100 500000 g.dSort
    && g.kicks.length == 8 && g.kicks.all (fun k => within 1000 1000000 k.1 && within 0 5000 k.2)

/-- The cross-checks of R55. -/
def Geometry.consistent (g : Geometry) : Bool :=
  decide (g.dDeadline + g.wBC ≤ g.gBC) && decide (g.nTen < g.nDis) && g.kicks.all fun k => decide (g.dSort + k.2 < k.1)

/-- GEOLD's conditions on the line (R55). -/
def lineEmpty (p : Part) : Bool :=
  !p.cpl.permit && (p.queue .A).isEmpty && (p.queue .B).isEmpty && (p.queue .C).isEmpty && (p.queue .D).isEmpty
    && (p.queue .E).isEmpty && p.ztr.cutList.isEmpty && p.acu.waste.isEmpty && p.acu.lastCut.isNone

/-- GEOLD taken (R55). -/
def serveGeold (g : Geometry) (p : Part) : Reply × Part :=
  if !lineEmpty p then (⟨.wrongState, []⟩, p)
  else if !(Geometry.inRange g && Geometry.consistent g) then (⟨.range, []⟩, p)
  else
    (⟨.done, []⟩, reevaluate false { p with
      ztr.geo := g
      ztr.geoValid := true })

/-- GEOLD. -/
def execGeold (link : LinkNo) (number : Nat) (geometry : Geometry) (s : State) : Host.Outcome State Fault Refusal :=
  next (run (takeRequest link 0x18 number (.geold link number geometry) (serveGeold geometry))) s

/-! LINCLR (R57). -/

/-- LINCLR in service: every block clears, and the request stays at the head of its link's list until its reply (R57, R205). -/
def beginLinclr (l : LinkNo) (number : Nat) (p : Part) : Part :=
  match refusal l 0x19 p with
  | some st => composeReply l 0x19 number ⟨st, []⟩ (popRequest l p)
  | none => lineClear none (some number) p

/-- LINCLR is taken, or waits (R57, R205). -/
def takeLinclr (l : LinkNo) (number : Nat) (p : Part) : Part :=
  match arrival l (.request (.linclr l number)) p with
  | .nothing => p
  | .head => beginLinclr l number p
  | .fresh => beginLinclr l number (joinRequests l (.request (.linclr l number)) p)
  | .behind => joinRequests l (.request (.linclr l number)) p

/-- LINCLR. -/
def execLinclr (link : LinkNo) (number : Nat) (s : State) : Host.Outcome State Fault Refusal :=
  next (run (takeLinclr link number)) s

/-! ZONRD (R58, R136, R150). -/

/-- The zone a letter's field names (R58). -/
def zoneOf (n : Nat) : Option Zone :=
  match n with
  | 0 => some .A
  | 1 => some .B
  | 2 => some .C
  | 3 => some .D
  | 4 => some .E
  | _ => none

/-- The lists of ZONRD (R58). -/
inductive ZoneList where
  | queue | cuts | saw | waste
  | kicks (bay : BayNo)
deriving DecidableEq, Repr

/-- The list a field names in a zone. DESIGN CHOICE, unsafe: 0 the zone queue; in zone C 1 the cut list, 2 the saw queue, 3 the waste
interval list; in zone E 3 + b the kick queue of bay b (log entry 7). -/
def listOf (z : Zone) (n : Nat) : Option ZoneList :=
  if n = 0 then some .queue
  else if z = .C then
    if n = 1 then some .cuts
    else if n = 2 then some .saw
    else if n = 3 then some .waste
    else none
  else if z = .E ∧ 4 ≤ n ∧ n ≤ 11 then some (.kicks (Fin.ofNat 8 (n - 4)))
  else none

/-- An eye's fields: state and last-edge positions (R37, R58). -/
def eyeItems (e : Eye) : List Item := [.u8 (if e.blocked then 1 else 0), .u32 e.lead, .u32 e.trail]

/-- The eyes and sensors of a zone (R58; in zone D the load sensor and the E-eye, R150). DESIGN CHOICE, unsafe: the sample's lug number takes
two bytes (log entry 7). -/
def zoneEyeItems (z : Zone) (p : Part) : List Item :=
  match z with
  | .A => eyeItems p.ztr.eyeA
  | .B => eyeItems p.ztr.eyeB
  | .C => eyeItems p.ztr.eyeC
  | .D => [flagItem p.ztr.load.occupied, .u16 p.ztr.load.lug, .u8 (if p.ztr.eyeE.blocked then 1 else 0), .u32 p.ztr.eyeE.lead]
  | .E => eyeItems p.ztr.eyeE ++ eyeItems p.ztr.eyeX

/-- The zone counter, and for a linear zone its high-water mark (R58). -/
def counterFields (z : Zone) (p : Part) : List Item :=
  .u32 (p.counter z) :: (if z = .D then [] else [.u32 (p.zone z).mark])

/-- A zone queue entry: tag and lead position; in zone D tag, lug number and tenoner status (R58, R150). DESIGN CHOICE, unsafe: the lug number
takes two bytes, by its range (log entry 7). -/
def entryItems (z : Zone) (e : Entry) : List Item :=
  if z = .D then [tagItem e.tag, .u16 e.lead, .u8 e.status.ctorIdx] else [tagItem e.tag, .u32 e.lead]

/-- A waste interval state's place in Table 6-3; WAITING with a spent shut target reads as WAITING (log entry 23). -/
def wasteStateNo : WasteState → Nat
  | .waiting | .waitingShut => 0
  | .openDue => 1
  | .bothDue => 2
  | .opened => 3
  | .shutDue => 4

/-- A waste interval entry: open target, shut target or open-ended, state (R136). -/
def wasteItems (e : WasteEntry) : List Item := [.u32 e.openT] ++ optPos e.shutT ++ [.u8 (wasteStateNo e.state)]

/-- Every entry of the list named, in order from the head (R58, R136). -/
def listEntries (z : Zone) (x : ZoneList) (p : Part) : List (List Item) :=
  match x with
  | .queue => (p.queue z).map (entryItems z)
  | .cuts => p.ztr.cutList.map fun e => [.u16 e.tag, .u32 e.lead]
  | .saw => p.acu.saw.map fun e => [.u32 e.target, .u16 e.tag]
  | .waste => p.acu.waste.map wasteItems
  | .kicks b => (p.kickQueue b).map fun e => [.u32 e.target, .u16 e.tag]

/-- The coil pair's state: OFF, OPEN_ON or SHUT_ON (R129). -/
def coilNo : Option (Coil × Nat) → Nat
  | none => 0
  | some (.opening, _) => 1
  | some (.shutting, _) => 2

/-- The Action Unit's fields in every reply for zone C (R136). -/
def actionFields (z : Zone) (p : Part) : List Item :=
  if z = .C then [.u8 (coilNo p.acu.coil), .u8 (if p.acu.flapOpen then 0 else 1)] ++ optPos p.acu.lastCut else []

/-- The entries that fit in the room left, from the first on (R58). -/
def takeFitting : Nat → List (List Item) → List (List Item)
  | _, [] => []
  | room, e :: rest => if itemsSize e ≤ room then e :: takeFitting (room - itemsSize e) rest else []

/-- ZONRD's fields before its entries (R58). DESIGN CHOICE, unsafe: in zone D too the entries of the list named are counted beside those of
the queue, which R150 does not list (log entry 7). -/
def zonrdHead (z : Zone) (x : ZoneList) (p : Part) : List Item :=
  counterFields z p ++ zoneEyeItems z p ++ [.u8 (p.queue z).length, .u8 (listEntries z x p).length]

/-- ZONRD's fields after its entries (R58, R136). DESIGN CHOICE, unsafe: the coil pair, flap position and last cut position of R136, to
which R58's list gives no place, stand last, after LINE FAULT; in zone D geometry validity and LINE FAULT stand behind R150's fields (log
entry 7). -/
def zonrdTail (z : Zone) (p : Part) : List Item := [flagItem p.ztr.geoValid] ++ faultItems p.ztr.fault ++ actionFields z p

/-- ZONRD's fields: at most 32 entries, and no more than the payload holds (R58). Status and entry count take two bytes. -/
def zonrdItems (z : Zone) (x : ZoneList) (first : Nat) (p : Part) : List Item :=
  let before := zonrdHead z x p
  let behind := zonrdTail z p
  let room := Config.payloadMax - (2 + itemsSize before + itemsSize behind)
  before ++ listItems (takeFitting room (((listEntries z x p).drop first).take Config.zonrdMax)) ++ behind

/-- ZONRD taken (R58). -/
def serveZonrd (zone list first : Nat) (p : Part) : Reply × Part :=
  match zoneOf zone with
  | none => (⟨.range, []⟩, p)
  | some z =>
    match listOf z list with
    | none => (⟨.range, []⟩, p)
    | some x => if 63 < first then (⟨.range, []⟩, p) else (⟨.done, zonrdItems z x first p⟩, p)

/-- ZONRD. -/
def execZonrd (link : LinkNo) (number zone list first : Nat) (s : State) : Host.Outcome State Fault Refusal :=
  next (run (takeRequest link 0x1A number (.zonrd link number zone list first) (serveZonrd zone list first))) s

end Sys2Proof.Machine
end

