-- ==== Sys2Proof/Machine/PlannerRequests.lean ====
section
/-! DEFINITION. The requests of the Cut Planner and of the end-matcher (chapters 3, 4 and 7). -/

namespace Sys2Proof.Machine

open Sys2Proof

/-! CTXLD and CTXSEL (R62, R64). -/

/-- Each number is below the next. -/
def ascending : List Nat → Bool
  | [] => true
  | [_] => true
  | a :: b :: rest => decide (a < b) && ascending (b :: rest)

/-- Every field of a profile in its range, and the cross-checks (Table 3-1; R62, check 3). -/
def Profile.inRange (f : Profile) : Bool :=
  within 1 255 f.code && within 1 8 f.species && within 100 2000 f.width && within 0 500 f.trim && within 10 100 f.kerf
    && within 0 500 f.clearance && within 1 8 f.classes.length && f.classes.all (within 100 2500) && ascending f.classes
    && f.valuesA.length == f.classes.length && f.valuesB.length == f.classes.length && f.valuesC.length == f.classes.length
    && f.valuesA.all (within 0 4095) && f.valuesB.all (within 0 4095) && f.valuesC.all (within 0 4095)
    && within 0 1023 f.bonus && within 1000 30000 f.maxLen
    && decide (10 * f.classes.headD 0 + 2 * f.trim ≤ f.maxLen)

/-- A profile written into a slot (R62). -/
def loadProfile (c : CtxNo) (f : Profile) (p : Part) : Part := reevaluate false (p.setCtx c { p.ctx c with profile := some f })

/-- CTXLD taken (R62). -/
def serveCtxld (slot : Nat) (f : Profile) (p : Part) : Reply × Part :=
  if 3 < slot then (⟨.range, []⟩, p)
  else
    let c : CtxNo := Fin.ofNat 4 slot
    if 0 < (p.ctx c).refs then (⟨.inUse, [.u16 (p.ctx c).refs]⟩, p)
    else if !Profile.inRange f then (⟨.range, []⟩, p)
    else
      let q := loadProfile c f p
      (⟨.done, [flagItem (runnableCtx c q)]⟩, q)

/-- CTXLD. -/
def execCtxld (link : LinkNo) (number slot : Nat) (profile : Profile) (s : State) : Host.Outcome State Fault Refusal :=
  next (run (takeRequest link 0x20 number (.ctxld link number slot profile) (serveCtxld slot profile))) s

/-- The active context index set (R64). -/
def selectContext (c : CtxNo) (p : Part) : Part := reevaluate false { p with cpl.active := c }

/-- CTXSEL taken (R64). -/
def serveCtxsel (slot : Nat) (p : Part) : Reply × Part :=
  if 3 < slot then (⟨.range, []⟩, p)
  else
    let c : CtxNo := Fin.ofNat 4 slot
    if (p.ctx c).profile.isNone then (⟨.wrongState, []⟩, p)
    else
      let q := selectContext c p
      (⟨.done, [.u16 (q.ctx c).refs, flagItem (runnableCtx c q)]⟩, q)

/-- CTXSEL. -/
def execCtxsel (link : LinkNo) (number slot : Nat) (s : State) : Host.Outcome State Fault Refusal :=
  next (run (takeRequest link 0x21 number (.ctxsel link number slot) (serveCtxsel slot))) s

/-! GRDLD (R66). -/

/-- A live strip of the species is in SCANNING, MAPPED or PLANNING; species and state are taken from the shadow (R66). -/
def usesGrades (species : Nat) (p : Part) (b : ShadowBody) : Bool :=
  match b with
  | .strip s =>
    (s.state == .scanning || s.state == .mapped || s.state == .planning) && (profileOf s.ctx p).species == species
  | .piece _ => false
  | .nothing => false

/-- Counts and sizes in their ranges (R66, Table 3-4). -/
def limitsInRange (limits : List GradeLimit) : Bool :=
  limits.length == 48 && limits.all fun x => decide (x.count ≤ 15) && decide (x.size ≤ 255)

/-- GRDLD taken (R66). -/
def serveGrdld (species : Nat) (limits : List GradeLimit) (p : Part) : Reply × Part :=
  if !(within 1 8 species && limitsInRange limits) then (⟨.range, []⟩, p)
  else if !(slotsWhere (usesGrades species p) p).isEmpty then (⟨.inUse, []⟩, p)
  else (⟨.done, []⟩, { p with cpl.grades := p.cpl.grades.set (Fin.ofNat 8 (species - 1)) limits })

/-- GRDLD. -/
def execGrdld (link : LinkNo) (number species : Nat) (limits : List GradeLimit) (s : State) : Host.Outcome State Fault Refusal :=
  next (run (takeRequest link 0x22 number (.grdld link number species limits) (serveGrdld species limits))) s

/-! LINGO and LINSTP (R69). -/

/-- PERMIT and the permit report, as LINGO and LINSTP reply with them (R69, R72). -/
def permitItems (p : Part) : List Item := flagItem p.cpl.permit :: listItems (p.cpl.report.map fun c => [.u8 c.ctorIdx])

/-- RUN set or cleared (R69). -/
def serveRun (b : Bool) (p : Part) : Reply × Part :=
  let q := reevaluate false { p with cpl.run := b }
  (⟨.done, permitItems q⟩, q)

/-- LINGO. -/
def execLingo (link : LinkNo) (number : Nat) (s : State) : Host.Outcome State Fault Refusal :=
  next (run (takeRequest link 0x23 number (.lingo link number) (serveRun true))) s

/-- LINSTP. -/
def execLinstp (link : LinkNo) (number : Nat) (s : State) : Host.Outcome State Fault Refusal :=
  next (run (takeRequest link 0x24 number (.linstp link number) (serveRun false))) s

/-! MAPNEXT (R76). -/

/-- The record of a tag when it is a strip in SCANNING. -/
def scanningStrip (tag : Option Nat) (p : Part) : Option Strip :=
  match tag with
  | none => none
  | some t =>
    match recordAt t p with
    | .strip s => if s.state = .scanning then some s else none
    | .piece _ => none
    | .nothing => none

/-- One zone B entry read by MAPNEXT. The flag says that a read has found damage, which ends the reading (R17, R22; log entry 16). -/
def readEntry (acc : Bool × Part) (e : Entry) : Bool × Part :=
  if acc.1 then acc
  else
    match e.tag with
    | none => acc
    | some t =>
      match lookup t .lif acc.2 with
      | (.damaged, q) => (true, q)
      | (.cleared, q) => (true, q)
      | (_, q) => (false, q)

/-- The strips in SCANNING in zone B, from the head on (R76). -/
def scanningStrips (p : Part) : List Strip := (p.queue .B).filterMap fun e => scanningStrip e.tag p

/-- MAPNEXT taken: the zone B records are read, then the first SCANNING strip is named; a read that finds damage is answered DAMAGED
(R14, R17, R76). -/
def serveMapnext (p : Part) : Reply × Part :=
  let r := (p.queue .B).foldl readEntry (false, p)
  if r.1 then (⟨.damaged, []⟩, r.2)
  else
    match scanningStrips r.2 with
    | [] => (⟨.notFound, [.u8 0]⟩, r.2)
    | s :: rest =>
      let d := s.deadline.getD 0
      (⟨.done, [.u16 s.tag, .u32 (s.lenB.getD 0), .u32 d, .u32 (ahead .B d (r.2.counter .B)), .u8 (rest.length + 1)]⟩, r.2)

/-- MAPNEXT. -/
def execMapnext (link : LinkNo) (number : Nat) (s : State) : Host.Outcome State Fault Refusal :=
  next (run (takeRequest link 0x28 number (.mapnext link number) serveMapnext)) s

/-! MAPPOST (R77 to R82). -/

/-- The fields of MAPPOST in their ranges (R77, Table 4-2). -/
def MapForm.inRange (f : MapForm) : Bool := decide (f.defects.length ≤ 16) && f.defects.all fun d => decide (d.cls ≤ 15)

/-- The map is accepted: stored, MAPPED, queued; planning starts if the planner is IDLE (R82, R86). -/
def acceptMap (s : Strip) (f : MapForm) (p : Part) : Reply × Part :=
  let q := writeStrip { s with map := some ⟨f.defects, false⟩, state := .mapped } p
  let q := { q with cpl.queue := q.cpl.queue ++ [s.tag] }
  (⟨.done, [.u8 q.cpl.queue.length, flagItem q.cpl.job.isSome]⟩, startPlanning q)

/-- MAPPOST for a current strip (Table 4-3, rows 5 to 10). -/
def postMap (s : Strip) (f : MapForm) (p : Part) : Reply × Part :=
  if s.state = .rejecting ∧ s.reject = some .noMap then (⟨.late, []⟩, p)
  else if s.state ≠ .scanning then (⟨.wrongState, []⟩, p)
  else if p.ztr.geo.lTol < absDiff f.length (s.lenB.getD 0) then (⟨.mismatch, [.u32 (s.lenB.getD 0)]⟩, p)
  else if f.overflow then
    (⟨.done, []⟩, (rejectStrip .lif .mapOverflow { s with map := some ⟨f.defects, true⟩ } p).2)
  else if Config.plannerCap ≤ p.cpl.queue.length then (⟨.overload, []⟩, (rejectStrip .lif .overload s p).2)
  else acceptMap s f p

/-- MAPPOST taken (R77, Table 4-3). -/
def serveMappost (f : MapForm) (p : Part) : Reply × Part :=
  match lookup f.tag .lif p with
  | (.stale, q) => (⟨.stale, []⟩, q)
  | (.damaged, q) => (⟨.damaged, []⟩, q)
  | (.cleared, q) => (⟨.damaged, []⟩, q)
  | (.piece _, q) => if MapForm.inRange f then (⟨.wrongState, []⟩, q) else (⟨.range, []⟩, q)
  | (.strip s, q) => if MapForm.inRange f then postMap s f q else (⟨.range, []⟩, q)

/-- MAPPOST. -/
def execMappost (link : LinkNo) (number : Nat) (form : MapForm) (s : State) : Host.Outcome State Fault Refusal :=
  next (run (takeRequest link 0x29 number (.mappost link number form) (serveMappost form))) s

/-! OUTCOME (R144 to R148). -/

/-- The results, in the order of R144. -/
inductive EndResult where
  | ok | downgrade | spoiled
deriving DecidableEq, Repr

/-- The result a field names (R144). -/
def resultOf (n : Nat) : Option EndResult :=
  match n with
  | 0 => some .ok
  | 1 => some .downgrade
  | 2 => some .spoiled
  | _ => none

/-- The grade after a result (R146). -/
def gradeAfter (r : EndResult) (g : Grade) : Grade :=
  match r with
  | .ok => g
  | .spoiled => .W
  | .downgrade =>
    match g with
    | .A => .B
    | .B => .C
    | .C => .W
    | .W => .W

/-- Grade and reserved order as a reply carries them, or none (R144). DESIGN CHOICE, unsafe: each an optional field (log entry 7). -/
def outcomeItems (x : Option Piece) : List Item :=
  optItems (x.map fun y => [.u8 y.grade.ctorIdx])
    ++ optItems (x.bind fun y => y.reserved.map fun o => [.u8 o.val])

/-- The piece record of a tag as it stands. -/
def pieceAt (tag : Nat) (p : Part) : Option Piece :=
  match recordAt tag p with
  | .piece x => some x
  | .strip _ => none
  | .nothing => none

/-- A DOWNGRADE or SPOILED result: the grade changed, the piece flagged; a changed grade releases the reservation, and a piece that can
still be sorted to a bay is attributed afresh (R146, R147). -/
def degrade (r : EndResult) (x : Piece) (p : Part) : Part :=
  let g := gradeAfter r x.grade
  if g = x.grade then writePiece { x with downgraded := true } p
  else
    let y : Piece := { x with grade := g, downgraded := true, reserved := none }
    let q := writePiece y (release x p)
    if x.unsure then q else reservePiece y q

/-- INSPECT set on the bundle in the piece's assigned bay (R148). -/
def flagInspect (x : Piece) (p : Part) : Part :=
  match x.bay with
  | none => p
  | some b => changeBundle b (fun u => { u with inspect := true }) p

/-- OUTCOME for a current piece (Table 7-4, rows 5 to 9). -/
def postOutcome (r : EndResult) (x : Piece) (p : Part) : Reply × Part :=
  match x.state with
  | .planned => (⟨.wrongState, outcomeItems (some x)⟩, p)
  | .beltC => (⟨.wrongState, outcomeItems (some x)⟩, p)
  | .assigned => (⟨.late, outcomeItems (some x)⟩, if r = .ok then p else flagInspect x p)
  | .unsorted => (⟨.late, outcomeItems (some x)⟩, p)
  | .lug | .beltE =>
    if x.downgraded then (⟨.wrongState, outcomeItems (some x)⟩, p)
    else if r = .ok then (⟨.done, outcomeItems (some x)⟩, p)
    else
      let q := degrade r x p
      (⟨.done, outcomeItems (pieceAt x.tag q)⟩, q)

/-- OUTCOME taken (R144, Table 7-4). DESIGN CHOICE, unsafe: the WRONGSTATE reply to a tag that names a strip carries neither grade nor
reserved order (log entry 7). -/
def serveOutcome (tag result : Nat) (p : Part) : Reply × Part :=
  match resultOf result with
  | none => (⟨.range, outcomeItems none⟩, p)
  | some r =>
    match lookup tag .lif p with
    | (.stale, q) => (⟨.stale, outcomeItems none⟩, q)
    | (.damaged, q) => (⟨.damaged, outcomeItems none⟩, q)
    | (.cleared, q) => (⟨.damaged, outcomeItems none⟩, q)
    | (.strip _, q) => (⟨.wrongState, outcomeItems none⟩, q)
    | (.piece x, q) => postOutcome r x q

/-- OUTCOME. -/
def execOutcome (link : LinkNo) (number tag result : Nat) (s : State) : Host.Outcome State Fault Refusal :=
  next (run (takeRequest link 0x30 number (.outcome link number tag result) (serveOutcome tag result))) s

end Sys2Proof.Machine
end

