-- ==== Sys2Proof/Machine/OrderRequests.lean ====
section
/-! DEFINITION. The requests of the Order Table (chapter 8). -/

namespace Sys2Proof.Machine

open Sys2Proof

/-- The slot that holds an order number, in whatever state (R152). -/
def findOrder (number : Nat) (p : Part) : Option OrderNo :=
  (List.finRange 32).find? fun o =>
    match p.order o with
    | none => false
    | some x => x.number == number

/-- The lowest EMPTY slot (R154). -/
def emptySlot (p : Part) : Option OrderNo := (List.finRange 32).find? fun o => (p.order o).isNone

/-- The state of a slot, none when it is EMPTY. -/
def slotState (o : OrderNo) (p : Part) : Option OrderState := (p.order o).map (·.state)

/-- A slot state's field: EMPTY, then Table 8-2. -/
def slotStateItem (o : OrderNo) (p : Part) : Item := .u8 (orderStateNo (slotState o p))

/-! ORDADM (R154, R155). -/

/-- The grade a field names, A to C (Table 8-1). -/
def orderGrade (n : Nat) : Option Grade :=
  match n with
  | 0 => some .A
  | 1 => some .B
  | 2 => some .C
  | _ => none

/-- Every field of ORDADM in its range (Table 8-1; R154, check 1). -/
def OrderForm.inRange (f : OrderForm) : Bool :=
  within 1 99999 f.number && within 1 8 f.species && (orderGrade f.grade).isSome && within 1 8 f.classes.length
    && f.classes.all (within 100 2500) && decide f.classes.Nodup && within 1000 50000 f.target && within 0 5000 f.tolerance
    && within 0 2500 f.shortLength && within 0 100 f.shortCap && within 1 9999 f.ordered && within 0 7 f.priority

/-- The next admission sequence (R155). -/
def nextSeq (n : Nat) : Nat := if n < Config.counterMax then n + 1 else n

/-- The order as it is admitted (R154). -/
def newOrder (f : OrderForm) (seq : Nat) : Order where
  state := .active
  number := f.number
  species := f.species
  grade := (orderGrade f.grade).getD .A
  classes := f.classes
  target := f.target
  tolerance := f.tolerance
  shortLength := f.shortLength
  shortCap := f.shortCap
  ordered := f.ordered
  opened := 0
  retired := 0
  priority := f.priority
  seq := seq
  reservedArea := 0
  transitArea := 0
  landedArea := 0
  retiredArea := 0

/-- The order placed in its slot with the next sequence, ORDSTA asked for, and bundle opening tried (R154, R171, R178). -/
def admitOrder (o : OrderNo) (f : OrderForm) (p : Part) : Part :=
  let n := nextSeq p.ort.seq
  let p := ({ p with ort.seq := n } : Part).setOrder o (some (newOrder f n))
  raiseOrdsta o none (tryOpening p)

/-- ORDADM's fields when it is answered DONE (R154). -/
def admitItems (o : OrderNo) (p : Part) : List Item :=
  match p.order o with
  | none => []
  | some x => [.u8 o.val, .u32 x.seq, .u16 x.opened]

/-- ORDADM taken (R154). -/
def serveOrdadm (f : OrderForm) (p : Part) : Reply × Part :=
  if !OrderForm.inRange f then (⟨.range, []⟩, p)
  else
    match findOrder f.number p with
    | some o => (⟨.duplicate, [.u8 o.val, slotStateItem o p]⟩, p)
    | none =>
      match emptySlot p with
      | none => (⟨.full, []⟩, p)
      | some o =>
        let q := admitOrder o f p
        (⟨.done, admitItems o q⟩, q)

/-- ORDADM. -/
def execOrdadm (link : LinkNo) (number : Nat) (form : OrderForm) (s : State) : Host.Outcome State Fault Refusal :=
  next (run (takeRequest link 0x38 number (.ordadm link number form) (serveOrdadm form))) s

/-! ORDAMD (R165, R167). -/

/-- State, ordered area and bundles opened, as ORDAMD replies with them (R165). -/
def amendItems (o : OrderNo) (p : Part) : List Item :=
  match p.order o with
  | none => []
  | some x => [slotStateItem o p, .u32 (orderedArea x), .u16 x.opened]

/-- Bundles ordered set, and the state tested (R165). The flag says that a read has cleared the line. -/
def amend (o : OrderNo) (x : Order) (ordered : Nat) (p : Part) : Bool × Part :=
  let p := changeOrder o (fun y => { y with ordered := ordered }) p
  match x.state with
  | .active => completeIfDone o p
  | .complete => (false, if x.retired < ordered then setOrderState o .active p else p)
  | .cancelling => (false, p)
  | .cancelled => (false, p)

/-- Bundle opening is tried when the order is ACTIVE (R165, R178). -/
def openIfActive (o : OrderNo) (p : Part) : Part := if slotState o p = some .active then tryOpening p else p

/-- ORDAMD taken (R165). -/
def serveOrdamd (number ordered : Nat) (p : Part) : Reply × Part :=
  if !within 1 9999 ordered then (⟨.range, []⟩, p)
  else
    match findOrder number p with
    | none => (⟨.notFound, []⟩, p)
    | some o =>
      match p.order o with
      | none => (⟨.notFound, []⟩, p)
      | some x =>
        if x.state = .cancelling ∨ x.state = .cancelled then (⟨.wrongState, []⟩, p)
        else if ordered < x.opened then (⟨.range, [.u16 x.opened]⟩, p)
        else
          let r := amend o x ordered p
          let q := raiseOrdsta o (some x.state) (openIfActive o r.2)
          (doneUnlessDamaged r.1 (amendItems o q), q)

/-- ORDAMD. -/
def execOrdamd (link : LinkNo) (number order ordered : Nat) (s : State) : Host.Outcome State Fault Refusal :=
  next (run (takeRequest link 0x39 number (.ordamd link number order ordered) (serveOrdamd order ordered))) s

/-! ORDCAN (R166). -/

/-- ORDCAN taken (R166). -/
def serveOrdcan (number : Nat) (p : Part) : Reply × Part :=
  match findOrder number p with
  | none => (⟨.notFound, []⟩, p)
  | some o =>
    if slotState o p ≠ some .active then (⟨.wrongState, []⟩, p)
    else
      let r := cancelOrder o p
      let q := raiseOrdsta o (some .active) r.2
      (doneUnlessDamaged r.1 [slotStateItem o q], q)

/-- ORDCAN. -/
def execOrdcan (link : LinkNo) (number order : Nat) (s : State) : Host.Outcome State Fault Refusal :=
  next (run (takeRequest link 0x3A number (.ordcan link number order) (serveOrdcan order))) s

/-! ORDREM (R169). -/

/-- A finished order leaves its slot, and ORDSTA reports it (R169, R171). DESIGN CHOICE, unsafe: number, counts and areas in that ORDSTA are
those from before the slot was emptied (log entry 28). -/
def removeOrder (o : OrderNo) (x : Order) (p : Part) : Part :=
  raise (ordsta o (some x.state) none x) (p.setOrder o none)

/-- ORDREM taken (R169). -/
def serveOrdrem (number : Nat) (p : Part) : Reply × Part :=
  match findOrder number p with
  | none => (⟨.notFound, []⟩, p)
  | some o =>
    match p.order o with
    | none => (⟨.notFound, []⟩, p)
    | some x =>
      if x.state = .active ∨ x.state = .cancelling then (⟨.wrongState, []⟩, p)
      else (⟨.done, [.u16 x.retired, .u32 x.landedArea, .u32 x.retiredArea]⟩, removeOrder o x p)

/-- ORDREM. -/
def execOrdrem (link : LinkNo) (number order : Nat) (s : State) : Host.Outcome State Fault Refusal :=
  next (run (takeRequest link 0x3B number (.ordrem link number order) (serveOrdrem order))) s

/-! ORDRD (R170). -/

/-- Every field of Table 8-1 (R152: an EMPTY slot reads as 0). DESIGN CHOICE, unsafe: the tolerance is an area of four bytes, and the
accepted classes, which Table 8-1 calls a set, stand in the order that ORDADM posted (log entry 7). -/
def orderFields (x : Option Order) : List Item :=
  match x with
  | none =>
    [.u8 0, .u32 0, .u8 0, .u8 0, .u8 0, .u32 0, .u32 0, .u16 0, .u8 0, .u16 0, .u16 0, .u16 0, .u8 0, .u32 0, .u32 0, .u32 0,
      .u32 0, .u32 0]
  | some x =>
    [.u8 (orderStateNo (some x.state)), .u32 x.number, .u8 x.species, .u8 x.grade.ctorIdx]
      ++ listItems (x.classes.map fun c => [.u16 c])
      ++ [.u32 x.target, .u32 x.tolerance, .u16 x.shortLength, .u8 x.shortCap, .u16 x.ordered, .u16 x.opened, .u16 x.retired,
        .u8 x.priority, .u32 x.seq, .u32 x.reservedArea, .u32 x.transitArea, .u32 x.landedArea, .u32 x.retiredArea]

/-- A bay holding a bundle of the order: bay number, serial, state (R170). -/
def bayOfOrder (b : BayNo) (p : Part) : List Item :=
  [.u8 (b.val + 1), .u16 (((p.bay b).bundle.map (·.serial)).getD 0), .u8 (p.bay b).state.ctorIdx]

/-- ORDRD's fields for a slot (R170). DESIGN CHOICE, unsafe: the bays of the order stand by ascending bay number (log entry 7). -/
def orderItems (o : OrderNo) (p : Part) : List Item :=
  orderFields (p.order o)
    ++ [.u32 (((p.order o).map orderedArea).getD 0), .u32 (((p.order o).map fun x => shortfall o x p).getD 0)]
    ++ listItems (((baysOf o p).filter fun _ => (p.order o).isSome).map fun b => bayOfOrder b p) ++ [.u32 p.ort.seq]

/-- ORDRD taken (R170). DESIGN CHOICE, unsafe: the field that says which is 0 for a slot number and 1 for an order number (log entry 7). -/
def serveOrdrd (which value : Nat) (p : Part) : Reply × Part :=
  if which = 0 then
    if 31 < value then (⟨.range, []⟩, p) else (⟨.done, orderItems (Fin.ofNat 32 value) p⟩, p)
  else if which = 1 then
    if !within 1 99999 value then (⟨.range, []⟩, p)
    else
      match findOrder value p with
      | none => (⟨.notFound, []⟩, p)
      | some o => (⟨.done, orderItems o p⟩, p)
  else (⟨.range, []⟩, p)

/-- ORDRD. -/
def execOrdrd (link : LinkNo) (number which value : Nat) (s : State) : Host.Outcome State Fault Refusal :=
  next (run (takeRequest link 0x3C number (.ordrd link number which value) (serveOrdrd which value))) s

end Sys2Proof.Machine
end

