-- ==== Sys2Proof/Machine/BayRequests.lean ====
section
/-! DEFINITION. The requests on bays and labels (chapters 9 and 10). -/

namespace Sys2Proof.Machine

open Sys2Proof

/-- The bay a field names, 1 to 8. -/
def bayOf (n : Nat) : Option BayNo := if 1 ≤ n ∧ n ≤ 8 then some (Fin.ofNat 8 (n - 1)) else none

/-- A bay state's field (Table 9-3). -/
def bayStateItem (b : Bay) : Item := .u8 b.state.ctorIdx

/-- Both hold flags, supervisor first (Table 9-1). -/
def holdItems (b : Bay) : List Item := [flagItem b.supHold, flagItem b.staHold]

/-- BAYHLD's fields: state, both flags, the bundle's order number, serial, landed and transit areas, kicks cancelled (R176).
DESIGN CHOICE, unsafe: the bundle's fields are optional fields, absent without a bundle (log entry 8). -/
def holdReply (b : Bay) (kicks : Nat) : List Item :=
  [bayStateItem b] ++ holdItems b
    ++ optPos (b.bundle.map (·.order)) ++ opt16 (b.bundle.map (·.serial))
    ++ optPos (b.bundle.map (·.landed)) ++ optPos (b.bundle.map (·.transit)) ++ [.u8 kicks]

/-! BAYHLD and BAYREL (R176, R177). -/

/-- The sender's hold flag set or cleared: link 0 has the supervisor's, a station link the STACKER's (R176, R212). -/
def setHold (l : LinkNo) (v : Bool) (b : Bay) : Bay := if l = 0 then { b with supHold := v } else { b with staHold := v }

/-- What the reads of a hold have found: damage, for which the answer is DAMAGED (R17), and a cleared line, which ends it (R22). -/
structure HoldReads where
  damaged : Bool
  cleared : Bool
deriving DecidableEq, Repr

/-- One kick of a bay that is now held: its piece becomes UNSORTED (R176, R184). A piece found damaged is condemned, its kick with it, and
the hold goes on (R17, R19; log entry 16). -/
def cancelHeldKick (b : BayNo) (acc : HoldReads × Part) (e : KickEntry) : HoldReads × Part :=
  if acc.1.cleared then acc
  else
    match lookup e.tag .lif acc.2 with
    | (.piece x, q) =>
      (acc.1, writePiece { x with state := .unsorted, bay := none, serial := none }
        (undoTransit b x.area x.len (removeKick b e.tag q)))
    | (.cleared, q) => (⟨true, true⟩, q)
    | (.damaged, q) => (⟨true, false⟩, removeKick b e.tag q)
    | (_, q) => (acc.1, removeKick b e.tag q)

/-- A hold takes effect on a bay that was unheld (R176). The flag says that a read of it has found damage. -/
def holdBay (b : BayNo) (p : Part) : Bool × Part :=
  let r := (p.kickQueue b).foldl (cancelHeldKick b) (⟨false, false⟩, p)
  (r.1.damaged, if r.1.cleared then r.2 else reevalClosing b r.2)

/-- BAYHLD taken (R176); a read of its own that finds damage is answered DAMAGED, with the hold in effect (R17; log entry 16). -/
def serveBayhld (l : LinkNo) (bay : Nat) (p : Part) : Reply × Part :=
  match bayOf bay with
  | none => (⟨.range, []⟩, p)
  | some b =>
    let q := p.setBay b (setHold l true (p.bay b))
    if (p.bay b).held then (⟨.done, holdReply (q.bay b) 0⟩, q)
    else
      let r := holdBay b q
      (doneUnlessDamaged r.1 (holdReply (r.2.bay b) (p.kickQueue b).length), r.2)

/-- BAYHLD. -/
def execBayhld (link : LinkNo) (number bay : Nat) (s : State) : Host.Outcome State Fault Refusal :=
  next (run (takeRequest link 0x40 number (.bayhld link number bay) (serveBayhld link bay))) s

/-- BAYREL taken: a bay left unheld in IDLE tries opening (R177, R178). DEDUCED, unsafe: the reply shows the bay after that opening, as it is
left by the whole request (log entry 32). -/
def serveBayrel (l : LinkNo) (bay : Nat) (p : Part) : Reply × Part :=
  match bayOf bay with
  | none => (⟨.range, []⟩, p)
  | some b =>
    let q := p.setBay b (setHold l false (p.bay b))
    let q := if (p.bay b).held && !(q.bay b).held && (q.bay b).state == .idle then tryOpening q else q
    (⟨.done, holdReply (q.bay b) 0⟩, q)

/-- BAYREL. -/
def execBayrel (link : LinkNo) (number bay : Nat) (s : State) : Host.Outcome State Fault Refusal :=
  next (run (takeRequest link 0x41 number (.bayrel link number bay) (serveBayrel link bay))) s

/-! BAYCLS (R187 to R189). -/

/-- BAYCLS's fields after a force close (R187). -/
def closeReply (b : Bay) (u : Bundle) : List Item :=
  [bayStateItem b] ++ holdItems b
    ++ [.u32 u.order, .u16 u.serial, .u32 u.landed, .u32 u.transit, flagItem u.short, flagItem u.inspect]

/-- BAYCLS's fields after a dismissal: the order number and the serial given back (R187). -/
def dismissReply (b : Bay) (u : Bundle) : List Item := [bayStateItem b] ++ holdItems b ++ [.u32 u.order, .u16 u.serial]

/-- The dismissal of BAYCLS: the order of the bundle settled, and opening tried if the bay is unheld (R168, R189). -/
def dismissBay (b : BayNo) (u : Bundle) (p : Part) : Part :=
  let before := slotState u.slot p
  raiseOrdsta u.slot before (openUnlessHeld b (settleCancelled u.slot (dismiss b p)))

/-- BAYCLS taken (R187). -/
def serveBaycls (bay : Nat) (p : Part) : Reply × Part :=
  match bayOf bay with
  | none => (⟨.range, []⟩, p)
  | some b =>
    match (p.bay b).bundle with
    | none => (⟨.wrongState, []⟩, p)
    | some u =>
      if (p.bay b).state ≠ .opened then (⟨.wrongState, []⟩, p)
      else if emptyOpen (p.bay b) then
        let q := dismissBay b u p
        (⟨.done, dismissReply (q.bay b) u⟩, q)
      else
        let q := forceClose b p
        (⟨.done, closeReply (q.bay b) ((q.bay b).bundle.getD u)⟩, q)

/-- BAYCLS. -/
def execBaycls (link : LinkNo) (number bay : Nat) (s : State) : Host.Outcome State Fault Refusal :=
  next (run (takeRequest link 0x42 number (.baycls link number bay) (serveBaycls bay))) s

/-! LBLRD and BDLRET (R198 to R200). -/

/-- LBLRD taken (R198). -/
def serveLblrd (bay : Nat) (p : Part) : Reply × Part :=
  match bayOf bay with
  | none => (⟨.range, []⟩, p)
  | some b =>
    match (p.bay b).bundle.bind (·.label) with
    | none => (⟨.wrongState, [bayStateItem (p.bay b)]⟩, p)
    | some x =>
      if (p.bay b).state = .full then (⟨.done, labelItems x ++ holdItems (p.bay b)⟩, p)
      else (⟨.wrongState, [bayStateItem (p.bay b)]⟩, p)

/-- LBLRD. -/
def execLblrd (link : LinkNo) (number bay : Nat) (s : State) : Host.Outcome State Fault Refusal :=
  next (run (takeRequest link 0x48 number (.lblrd link number bay) (serveLblrd bay))) s

/-- The bundle leaves its bay, which becomes IDLE with its flags kept (R200, step 2). -/
def emptyBay (b : BayNo) (p : Part) : Part := p.setBay b { p.bay b with state := .idle, bundle := none }

/-- The order's books at a retirement (R164). -/
def bookRetirement (u : Bundle) (p : Part) : Part :=
  changeOrder u.slot (fun o => { o with retired := o.retired + 1, retiredArea := o.retiredArea + u.landed }) p

/-- The order's figures after step 1: bundles retired, retired area, state (R200). -/
def retiredItems (u : Bundle) (p : Part) : List Item :=
  match p.order u.slot with
  | none => []
  | some o => [.u16 o.retired, .u32 o.retiredArea, slotStateItem u.slot p]

/-- The steps of BDLRET (R200): books and order state, the bay emptied, opening tried. The CANCELLING order is settled with the bay
already emptied, since its bundle has left it. The flag says that a read has cleared the line. DEDUCED, unsafe: that ends the bulk release
of step 1, and steps 2 and 3 are carried out on what the clear left (log entry 16). -/
def retireBundle (b : BayNo) (u : Bundle) (p : Part) : Bool × Part :=
  let r := completeIfDone u.slot (bookRetirement u p)
  (r.1, openUnlessHeld b (settleCancelled u.slot (emptyBay b r.2)))

/-- BDLRET's fields when it is answered DONE (R200): the bay's state with the order number and serial of a bundle opened there. -/
def retireReply (b : BayNo) (u : Bundle) (p : Part) : List Item :=
  [.u32 u.order, .u16 u.serial, .u32 u.landed] ++ retiredItems u p ++ [bayStateItem (p.bay b)]
    ++ optPos ((p.bay b).bundle.map (·.order)) ++ opt16 ((p.bay b).bundle.map (·.serial))

/-- BDLRET taken for a FULL bay (Table 10-4, rows 3 and 4). -/
def retireFull (b : BayNo) (u : Bundle) (order serial : Nat) (p : Part) : Reply × Part :=
  if u.order ≠ order ∨ u.serial ≠ serial then (⟨.stale, [.u32 u.order, .u16 u.serial]⟩, p)
  else
    let before := slotState u.slot p
    let r := retireBundle b u p
    let q := raiseOrdsta u.slot before r.2
    (doneUnlessDamaged r.1 (retireReply b u q), q)

/-- BDLRET taken (R199, Table 10-4). -/
def serveBdlret (bay order serial : Nat) (p : Part) : Reply × Part :=
  match bayOf bay with
  | none => (⟨.range, []⟩, p)
  | some b =>
    if !(within 1 99999 order && within 1 9999 serial) then (⟨.range, []⟩, p)
    else if (p.bay b).state ≠ .full then (⟨.wrongState, [bayStateItem (p.bay b)]⟩, p)
    else
      match (p.bay b).bundle with
      | none => (⟨.wrongState, [bayStateItem (p.bay b)]⟩, p)
      | some u => retireFull b u order serial p

/-- BDLRET. -/
def execBdlret (link : LinkNo) (number bay order serial : Nat) (s : State) : Host.Outcome State Fault Refusal :=
  next (run (takeRequest link 0x49 number (.bdlret link number bay order serial) (serveBdlret bay order serial))) s

end Sys2Proof.Machine
end

