-- ==== Sys2Proof/Machine/LineCommands.lean ====
section
/-! DEFINITION. The meanings of the steps that the line itself starts: power, counters, eyes, compares, pulses and timers. -/

namespace Sys2Proof.Machine

open Sys2Proof

/-! Power (R217, 11.10). -/

/-- The part after power-on with the signal levels its links have (R217; log entry 4). -/
def powered (p : Part) : Part :=
  { Part.reset with lif.link := p.lif.link.map fun x => { linkReset0 with signal := x.signal } }

/-- A link that has signal takes signal up at once when the reset input is released (R217). -/
def upIfSignal (p : Part) (l : LinkNo) : Part := if (p.link l).signal then signalUp l p else p

/-- POWER_ON_RESET: every block at its power-on state, then signal up on each link that has signal (R1, R60, R93, R135, R173, R217). -/
def powerOn (p : Part) : Part := finish ((List.finRange 7).foldl upIfSignal (powered p))

/-- POWER_ON_RESET. -/
def execPowerOnReset (s : State) : Host.Outcome State Fault Refusal := next powerOn s

/-- The power-on reset input is asserted: every output is off while it is, and nothing else is taken (11.10). -/
def assertReset (p : Part) : Part :=
  { p with
    inReset := true
    cpl.permit := false
    acu.sawPulse := none
    acu.coil := none
    acu.kickPulse := Vector.replicate 8 none }

/-- RESET_INPUT_ASSERTED. -/
def execResetInputAsserted (s : State) : Host.Outcome State Fault Refusal := next assertReset s

/-! Counters (R32 to R35). -/

/-- ZONE_FORWARD_STEP. -/
def execZoneForwardStep (zone : LinearZone) (s : State) : Host.Outcome State Fault Refusal :=
  next (run (stepForward zone.zone)) s

/-- ZONE_REVERSE_STEP. -/
def execZoneReverseStep (zone : LinearZone) (s : State) : Host.Outcome State Fault Refusal :=
  next (run (stepReverse zone.zone)) s

/-- LUG_PULSE. -/
def execLugPulse (occupied : Bool) (s : State) : Host.Outcome State Fault Refusal := next (run (stepLug occupied)) s

/-! Eyes (R37, R42 to R54). -/

/-- A_EYE_LEADING_EDGE. -/
def execAEyeLeadingEdge (s : State) : Host.Outcome State Fault Refusal := next (run aEyeLeading) s
/-- A_EYE_TRAILING_EDGE. -/
def execAEyeTrailingEdge (s : State) : Host.Outcome State Fault Refusal := next (run aEyeTrailing) s
/-- B_EYE_LEADING_EDGE. -/
def execBEyeLeadingEdge (s : State) : Host.Outcome State Fault Refusal := next (run bEyeLeading) s
/-- B_EYE_TRAILING_EDGE. -/
def execBEyeTrailingEdge (s : State) : Host.Outcome State Fault Refusal := next (run bEyeTrailing) s
/-- C_EYE_LEADING_EDGE. -/
def execCEyeLeadingEdge (s : State) : Host.Outcome State Fault Refusal := next (run cEyeLeading) s
/-- C_EYE_TRAILING_EDGE. -/
def execCEyeTrailingEdge (s : State) : Host.Outcome State Fault Refusal := next (run cEyeTrailing) s
/-- E_EYE_LEADING_EDGE. -/
def execEEyeLeadingEdge (s : State) : Host.Outcome State Fault Refusal := next (run eEyeLeading) s
/-- END_EYE_LEADING_EDGE. -/
def execEndEyeLeadingEdge (s : State) : Host.Outcome State Fault Refusal := next (run endEyeLeading) s
/-- EYE_TRAILING_EDGE. -/
def execEyeTrailingEdge (eye : SorterEye) (s : State) : Host.Outcome State Fault Refusal := next (run (sorterTrailing eye)) s

/-! Compares and targets taken (R36, R47, R84, R116, R121, R128, R131, R141, R179). -/

/-- HANDOFF_EXPIRY. -/
def execHandoffExpiry (zone : Zone) (s : State) : Host.Outcome State Fault Refusal := next (run (takeDue (.expiry zone))) s
/-- DEADLINE_COMPARE. -/
def execDeadlineCompare (tag : Nat) (s : State) : Host.Outcome State Fault Refusal := next (run (takeDue (.deadline tag))) s
/-- SORT_COMPARE. -/
def execSortCompare (tag : Nat) (s : State) : Host.Outcome State Fault Refusal := next (run (takeDue (.sort tag))) s
/-- TENONER_COMPARE. -/
def execTenonerCompare (lug : Nat) (s : State) : Host.Outcome State Fault Refusal := next (run (takeDue (.tenoner lug))) s
/-- LAST_CUT_COMPARE. -/
def execLastCutCompare (s : State) : Host.Outcome State Fault Refusal := next (run (takeDue .lastCut)) s

/-- The saw's head fires when its target has been taken (R124). -/
def fireSaw (p : Part) : Part :=
  match p.acu.saw.head? with
  | none => p
  | some e => takeDue (.saw e.target) p

/-- SAW_ACTION_FIRING. -/
def execSawActionFiring (s : State) : Host.Outcome State Fault Refusal := next (run fireSaw) s
/-- WASTE_OPEN_TARGET. -/
def execWasteOpenTarget (target : Nat) (s : State) : Host.Outcome State Fault Refusal := next (run (takeDue (.wasteOpen target))) s
/-- WASTE_SHUT_TARGET. -/
def execWasteShutTarget (target : Nat) (s : State) : Host.Outcome State Fault Refusal := next (run (takeDue (.wasteShut target))) s
/-- KICK_FIRING. -/
def execKickFiring (bay : BayNo) (tag : Nat) (s : State) : Host.Outcome State Fault Refusal := next (run (takeDue (.kick bay tag))) s

/-! The plan, the scrubber and LINE CLEAR (R23, R57, R88). -/

/-- PLAN_COMPLETION. -/
def execPlanCompletion (s : State) : Host.Outcome State Fault Refusal := next (run completePlan) s

/-- The scrubber reads one slot and advances its pointer (R23). -/
def scrub (p : Part) : Part :=
  let q := (readSlot p.rst.scrubPtr .rst p).2
  { q with rst.scrubPtr := p.rst.scrubPtr + 1 }

/-- SCRUB_READ. -/
def execScrubRead (s : State) : Host.Outcome State Fault Refusal := next (run scrub) s
/-- LINE_CLEAR_COMPLETE. -/
def execLineClearComplete (s : State) : Host.Outcome State Fault Refusal := next (run finishClear) s

/-! Pulses (R125, R129, R132). -/

/-- SAW off (R125). -/
def endSawPulse (p : Part) : Part := { p with acu.sawPulse := none }
/-- KICKb off (R132). -/
def endKickPulse (b : BayNo) (p : Part) : Part := { p with acu.kickPulse := p.acu.kickPulse.set b none }

/-- SAW_PULSE_END. -/
def execSawPulseEnd (s : State) : Host.Outcome State Fault Refusal := next (run endSawPulse) s
/-- FLAP_PULSE_END. -/
def execFlapPulseEnd (s : State) : Host.Outcome State Fault Refusal := next (run endFlapPulse) s
/-- DEAD_TIME_EXPIRY. -/
def execDeadTimeExpiry (s : State) : Host.Outcome State Fault Refusal := next (run endDeadTime) s
/-- KICK_PULSE_END. -/
def execKickPulseEnd (bay : BayNo) (s : State) : Host.Outcome State Fault Refusal := next (run (endKickPulse bay)) s

end Sys2Proof.Machine
end

