-- ==== Sys2Proof/Machine/LinkCommands.lean ====
section
/-! DEFINITION. The meanings of the steps that the links' lines and timers start, and of the requests of the Link Interface itself
(chapter 11). -/

namespace Sys2Proof.Machine

open Sys2Proof

/-! Signal (R207, R209, R211, R217). -/

/-- The level at a link's receive pair, recorded while the reset input is asserted (R217). -/
def recordSignal (l : LinkNo) (b : Bool) (p : Part) : Part := p.setLink l { p.link l with signal := b }

/-- Signal up, as a command. -/
def signalRises (l : LinkNo) (p : Part) : Part := if p.inReset then recordSignal l true p else run (gainSignal l) p

/-- Signal loss, as a command. -/
def signalFalls (l : LinkNo) (p : Part) : Part := if p.inReset then recordSignal l false p else run (loseSignal l) p

/-- LINK_SIGNAL_UP. -/
def execLinkSignalUp (link : LinkNo) (s : State) : Host.Outcome State Fault Refusal := next (signalRises link) s
/-- LINK_SIGNAL_LOSS. -/
def execLinkSignalLoss (link : LinkNo) (s : State) : Host.Outcome State Fault Refusal := next (signalFalls link) s

/-! Frames (R203 to R206). -/

/-- The first frame of a transmit list has been sent (R206). -/
def frameSent (l : LinkNo) (p : Part) : Part := p.setLink l { p.link l with transmit := (p.link l).transmit.drop 1 }

/-- FRAME_RECEIVED. -/
def execFrameReceived (link : LinkNo) (bytes : List Byte) (s : State) : Host.Outcome State Fault Refusal :=
  next (run (receiveBytes link bytes)) s
/-- FRAME_BYTE_TIMEOUT. -/
def execFrameByteTimeout (link : LinkNo) (s : State) : Host.Outcome State Fault Refusal := next (run (byteTimeout link)) s
/-- TRANSMIT_FRAME_SENT. -/
def execTransmitFrameSent (link : LinkNo) (s : State) : Host.Outcome State Fault Refusal := next (run (frameSent link)) s

/-! Timers (R209, R214). -/

/-- HOLD_TIMER_EXPIRY. -/
def execHoldTimerExpiry (link : LinkNo) (s : State) : Host.Outcome State Fault Refusal := next (run (holdExpiry link)) s
/-- CNTNTC_DELAY_EXPIRY. -/
def execCntntcDelayExpiry (s : State) : Host.Outcome State Fault Refusal := next (run reportCounts) s
/-- CNTNTC_CEILING_EXPIRY. -/
def execCntntcCeilingExpiry (s : State) : Host.Outcome State Fault Refusal := next (run reportCounts) s

/-! ENROL (R208). -/

/-- The role a field names (R208). -/
def roleOf (n : Nat) : Option Role :=
  match n with
  | 0 => some .moulder
  | 1 => some .scanner
  | 2 => some .endmatcher
  | 3 => some .stacker
  | 4 => some .labeller
  | _ => none

/-- The role needs a tool list (R208, check 2). -/
def needsTools : Role → Bool
  | .moulder => true
  | .scanner => false
  | .endmatcher => true
  | .stacker => false
  | .labeller => false

/-- Checks 1 and 2 of R208: the role named, when serial and tool list are in range. -/
def enrolRole (role serial : Nat) (tools : List Nat) : Option Role :=
  match roleOf role with
  | none => none
  | some r =>
    if serial = 0 ∨ 8 < tools.length ∨ tools.contains 0 ∨ ¬ tools.Nodup then none
    else if needsTools r && tools.isEmpty then none
    else some r

/-- The link becomes ENROLLED with its role, serial and tool list, its hold timer stopped (R208). -/
def enrolLink (l : LinkNo) (r : Role) (serial : Nat) (tools : List Nat) (p : Part) : Part :=
  reevaluate false (p.setLink l { p.link l with
    state := .enrolled, role := some r, serial := serial, tools := tools, holdTimer := none })

/-- The reply of an ENROL answered DONE (R208). -/
def enrolDone (l : LinkNo) (r : Role) (p : Part) : Reply :=
  ⟨.done, [.u8 l.val, roleItem r, flagItem p.cpl.runnable, flagItem p.cpl.permit]⟩

/-- ENROL, checked and taken (R208). -/
def serveEnrol (l : LinkNo) (role serial : Nat) (tools : List Nat) (p : Part) : Reply × Part :=
  match enrolRole role serial tools with
  | none => (⟨.range, []⟩, p)
  | some r =>
    let take := let q := enrolLink l r serial tools p
      (enrolDone l r q, q)
    if (p.link l).state = .waiting then
      match roleLink r p with
      | some k => (⟨.duplicate, [.u8 k.val, linkStateItem k (p.link k).state]⟩, p)
      | none => take
    else
      match (p.link l).role with
      | none => take
      | some own =>
        if own = r ∧ (p.link l).serial = serial then take
        else (⟨.wrongState, [roleItem own, .u32 (p.link l).serial]⟩, p)

/-- ENROL. -/
def execEnrol (link : LinkNo) (number role serial : Nat) (tools : List Nat) (s : State) : Host.Outcome State Fault Refusal :=
  next (run (takeRequest link 0x01 number (.enrol link number role serial tools) (serveEnrol link role serial tools))) s

/-! NTCSET, CNTRD and LINKRST (R210, R215, R216). -/

/-- A value taken as the nearest of its range (R23, R134, R215). -/
def clamp (lo hi n : Nat) : Nat := max lo (min hi n)

/-- The settings after the clamping (Table 11-6). -/
def Settings.clamped (t : Settings) : Settings :=
  ⟨clamp 1 100 t.scrub, clamp 0 250 t.delay, clamp 0 10000 t.hold, clamp 10 200 t.saw, clamp 10 200 t.flap, clamp 0 50 t.dead,
    clamp 10 200 t.kick⟩

/-- The settings put in force (R23, R134, R215). -/
def applySettings (t : Settings) (p : Part) : Part :=
  { p with
    rst.scrubInterval := t.scrub
    lif.delay := t.delay
    lif.hold := t.hold
    acu.sawWidth := t.saw
    acu.flapWidth := t.flap
    acu.deadTime := t.dead
    acu.kickWidth := t.kick }

/-- The settings' fields (Table 11-6). -/
def settingsItems (t : Settings) : List Item := [.u8 t.scrub, .u8 t.delay, .u16 t.hold, .u8 t.saw, .u8 t.flap, .u8 t.dead, .u8 t.kick]

/-- NTCSET taken (R215). -/
def serveNtcset (t : Settings) (p : Part) : Reply × Part :=
  (⟨.done, settingsItems (Settings.clamped t)⟩, applySettings (Settings.clamped t) p)

/-- NTCSET. -/
def execNtcset (link : LinkNo) (number : Nat) (settings : Settings) (s : State) : Host.Outcome State Fault Refusal :=
  next (run (takeRequest link 0x50 number (.ntcset link number settings) (serveNtcset settings))) s

/-- One link's fields of CNTRD (R216). DESIGN CHOICE, unsafe: the role is an optional field, absent on link 0 and on a link without one (log
entry 7). -/
def linkItems (l : LinkNo) (p : Part) : List Item :=
  let x := p.link l
  [linkStateItem l x.state] ++ optItems (x.role.map fun r => [roleItem r]) ++ listItems (x.tools.map fun t => [.u8 t])
    ++ [.u32 x.frameErrors, .u32 x.drops]

/-- CNTRD's fields, in the order of R216. -/
def counterItems (p : Part) : List Item :=
  [.u32 p.rst.corrected, .u32 p.rst.damaged, .u32 p.rst.shadowed]
    ++ p.rst.stripRetired.toList.map .u32 ++ p.rst.pieceRetired.toList.map .u32
    ++ [.u16 p.rst.free.length, .u32 p.ztr.untracked, .u32 p.ztr.stray]
    ++ p.cpl.contexts.toList.map (fun c => .u16 c.refs) ++ [.u8 p.cpl.queue.length]
    ++ (List.finRange 7).flatMap fun l => linkItems l p

/-- CNTRD taken (R216). -/
def serveCntrd (p : Part) : Reply × Part := (⟨.done, counterItems p⟩, p)

/-- CNTRD. -/
def execCntrd (link : LinkNo) (number : Nat) (s : State) : Host.Outcome State Fault Refusal :=
  next (run (takeRequest link 0x51 number (.cntrd link number) serveCntrd)) s

/-- LINKRST taken (R210). -/
def serveLinkrst (target : Nat) (p : Part) : Reply × Part :=
  if target = 0 ∨ 6 < target then (⟨.range, []⟩, p)
  else
    let l : LinkNo := Fin.ofNat 7 target
    let q := linkReset l p
    (⟨.done, [linkStateItem l (q.link l).state]⟩, q)

/-- LINKRST. -/
def execLinkrst (link : LinkNo) (number target : Nat) (s : State) : Host.Outcome State Fault Refusal :=
  next (run (takeRequest link 0x52 number (.linkrst link number target) (serveLinkrst target))) s

end Sys2Proof.Machine
end

