-- ==== Sys2Proof/Machine/Dispatch.lean ====
section
/-! DEFINITION. The dispatch of commands: one arm per constructor of Instr. -/

namespace Sys2Proof.Machine

open Sys2Proof

/-- The effect of a command on everything but the queue. -/
def exec (i : Instr) (s : State) : Host.Outcome State Fault Refusal :=
  match i with
  | .powerOnReset => Sys2Proof.Machine.execPowerOnReset s
  | .zoneForwardStep zone => Sys2Proof.Machine.execZoneForwardStep zone s
  | .zoneReverseStep zone => Sys2Proof.Machine.execZoneReverseStep zone s
  | .lugPulse occupied => Sys2Proof.Machine.execLugPulse occupied s
  | .aEyeLeadingEdge => Sys2Proof.Machine.execAEyeLeadingEdge s
  | .aEyeTrailingEdge => Sys2Proof.Machine.execAEyeTrailingEdge s
  | .bEyeLeadingEdge => Sys2Proof.Machine.execBEyeLeadingEdge s
  | .bEyeTrailingEdge => Sys2Proof.Machine.execBEyeTrailingEdge s
  | .cEyeLeadingEdge => Sys2Proof.Machine.execCEyeLeadingEdge s
  | .cEyeTrailingEdge => Sys2Proof.Machine.execCEyeTrailingEdge s
  | .eEyeLeadingEdge => Sys2Proof.Machine.execEEyeLeadingEdge s
  | .endEyeLeadingEdge => Sys2Proof.Machine.execEndEyeLeadingEdge s
  | .eyeTrailingEdge eye => Sys2Proof.Machine.execEyeTrailingEdge eye s
  | .handoffExpiry zone => Sys2Proof.Machine.execHandoffExpiry zone s
  | .deadlineCompare tag => Sys2Proof.Machine.execDeadlineCompare tag s
  | .planCompletion => Sys2Proof.Machine.execPlanCompletion s
  | .sawActionFiring => Sys2Proof.Machine.execSawActionFiring s
  | .lastCutCompare => Sys2Proof.Machine.execLastCutCompare s
  | .sawPulseEnd => Sys2Proof.Machine.execSawPulseEnd s
  | .wasteOpenTarget target => Sys2Proof.Machine.execWasteOpenTarget target s
  | .wasteShutTarget target => Sys2Proof.Machine.execWasteShutTarget target s
  | .flapPulseEnd => Sys2Proof.Machine.execFlapPulseEnd s
  | .deadTimeExpiry => Sys2Proof.Machine.execDeadTimeExpiry s
  | .sortCompare tag => Sys2Proof.Machine.execSortCompare tag s
  | .kickFiring bay tag => Sys2Proof.Machine.execKickFiring bay tag s
  | .kickPulseEnd bay => Sys2Proof.Machine.execKickPulseEnd bay s
  | .tenonerCompare lug => Sys2Proof.Machine.execTenonerCompare lug s
  | .scrubRead => Sys2Proof.Machine.execScrubRead s
  | .lineClearComplete => Sys2Proof.Machine.execLineClearComplete s
  | .holdTimerExpiry link => Sys2Proof.Machine.execHoldTimerExpiry link s
  | .cntntcDelayExpiry => Sys2Proof.Machine.execCntntcDelayExpiry s
  | .cntntcCeilingExpiry => Sys2Proof.Machine.execCntntcCeilingExpiry s
  | .linkSignalUp link => Sys2Proof.Machine.execLinkSignalUp link s
  | .linkSignalLoss link => Sys2Proof.Machine.execLinkSignalLoss link s
  | .frameReceived link bytes => Sys2Proof.Machine.execFrameReceived link bytes s
  | .frameByteTimeout link => Sys2Proof.Machine.execFrameByteTimeout link s
  | .enrol link number role serial tools => Sys2Proof.Machine.execEnrol link number role serial tools s
  | .recrd link number tag => Sys2Proof.Machine.execRecrd link number tag s
  | .recret link number tag => Sys2Proof.Machine.execRecret link number tag s
  | .errrd link number => Sys2Proof.Machine.execErrrd link number s
  | .geold link number geometry => Sys2Proof.Machine.execGeold link number geometry s
  | .linclr link number => Sys2Proof.Machine.execLinclr link number s
  | .zonrd link number zone list first => Sys2Proof.Machine.execZonrd link number zone list first s
  | .ctxld link number slot profile => Sys2Proof.Machine.execCtxld link number slot profile s
  | .ctxsel link number slot => Sys2Proof.Machine.execCtxsel link number slot s
  | .grdld link number species limits => Sys2Proof.Machine.execGrdld link number species limits s
  | .lingo link number => Sys2Proof.Machine.execLingo link number s
  | .linstp link number => Sys2Proof.Machine.execLinstp link number s
  | .mapnext link number => Sys2Proof.Machine.execMapnext link number s
  | .mappost link number form => Sys2Proof.Machine.execMappost link number form s
  | .outcome link number tag result => Sys2Proof.Machine.execOutcome link number tag result s
  | .ordadm link number form => Sys2Proof.Machine.execOrdadm link number form s
  | .ordamd link number order ordered => Sys2Proof.Machine.execOrdamd link number order ordered s
  | .ordcan link number order => Sys2Proof.Machine.execOrdcan link number order s
  | .ordrem link number order => Sys2Proof.Machine.execOrdrem link number order s
  | .ordrd link number which value => Sys2Proof.Machine.execOrdrd link number which value s
  | .bayhld link number bay => Sys2Proof.Machine.execBayhld link number bay s
  | .bayrel link number bay => Sys2Proof.Machine.execBayrel link number bay s
  | .baycls link number bay => Sys2Proof.Machine.execBaycls link number bay s
  | .lblrd link number bay => Sys2Proof.Machine.execLblrd link number bay s
  | .bdlret link number bay order serial => Sys2Proof.Machine.execBdlret link number bay order serial s
  | .ntcset link number settings => Sys2Proof.Machine.execNtcset link number settings s
  | .cntrd link number => Sys2Proof.Machine.execCntrd link number s
  | .linkrst link number target => Sys2Proof.Machine.execLinkrst link number target s
  | .transmitFrameSent link => Sys2Proof.Machine.execTransmitFrameSent link s
  | .resetInputAsserted => Sys2Proof.Machine.execResetInputAsserted s

end Sys2Proof.Machine
end

