-- ==== Sys2Proof/Laws/PerInstr.lean ====
section
/-! SUPPORT. One lemma per command: a request is spelt with a code that Table 11-1 lists, and a well-formed one with a request number
of one byte; a step of the part's own is no request. -/

namespace Sys2Proof.Laws

open Sys2Proof

/-- The request codes of Table 11-1. -/
def requestCodes : List Nat :=
  [0x01, 0x10, 0x11, 0x12, 0x18, 0x19, 0x1A, 0x20, 0x21, 0x22, 0x23, 0x24, 0x28, 0x29, 0x30, 0x38, 0x39, 0x3A, 0x3B, 0x3C, 0x40, 0x41,
    0x42, 0x48, 0x49, 0x50, 0x51, 0x52]

/-- A command that is a request is spelt with a listed code, and, well-formed, with a request number of one byte (R202, Table 11-1). -/
def RequestForm.Statement (i : Instr) : Prop :=
  ∀ (l : LinkNo) (code number : Nat) (payload : List Byte), requestForm i = some (l, code, number, payload) →
    code ∈ requestCodes ∧ (i.wf = true → number < 256)

/-- A command whose form is known meets the statement when its code is listed and its well-formedness bounds its number. -/
theorem requestForm_of {i : Instr} {l : LinkNo} {code number : Nat} {payload : List Byte}
    (h : requestForm i = some (l, code, number, payload)) (c : code ∈ requestCodes) (n : i.wf = true → fits8 number = true) :
    RequestForm.Statement i := by
  intro l' code' number' payload' k
  rw [h] at k
  cases k
  exact ⟨c, fun w => of_decide_eq_true (n w)⟩

/-- A command that is no request meets the statement. -/
theorem requestForm_none {i : Instr} (h : requestForm i = none) : RequestForm.Statement i := by
  intro l code number payload k
  rw [h] at k
  cases k

theorem RequestForm.powerOnReset : RequestForm.Statement .powerOnReset := requestForm_none rfl
theorem RequestForm.zoneForwardStep (zone : LinearZone) : RequestForm.Statement (.zoneForwardStep zone) := requestForm_none rfl
theorem RequestForm.zoneReverseStep (zone : LinearZone) : RequestForm.Statement (.zoneReverseStep zone) := requestForm_none rfl
theorem RequestForm.lugPulse (occupied : Bool) : RequestForm.Statement (.lugPulse occupied) := requestForm_none rfl
theorem RequestForm.aEyeLeadingEdge : RequestForm.Statement .aEyeLeadingEdge := requestForm_none rfl
theorem RequestForm.aEyeTrailingEdge : RequestForm.Statement .aEyeTrailingEdge := requestForm_none rfl
theorem RequestForm.bEyeLeadingEdge : RequestForm.Statement .bEyeLeadingEdge := requestForm_none rfl
theorem RequestForm.bEyeTrailingEdge : RequestForm.Statement .bEyeTrailingEdge := requestForm_none rfl
theorem RequestForm.cEyeLeadingEdge : RequestForm.Statement .cEyeLeadingEdge := requestForm_none rfl
theorem RequestForm.cEyeTrailingEdge : RequestForm.Statement .cEyeTrailingEdge := requestForm_none rfl
theorem RequestForm.eEyeLeadingEdge : RequestForm.Statement .eEyeLeadingEdge := requestForm_none rfl
theorem RequestForm.endEyeLeadingEdge : RequestForm.Statement .endEyeLeadingEdge := requestForm_none rfl
theorem RequestForm.eyeTrailingEdge (eye : SorterEye) : RequestForm.Statement (.eyeTrailingEdge eye) := requestForm_none rfl
theorem RequestForm.handoffExpiry (zone : Zone) : RequestForm.Statement (.handoffExpiry zone) := requestForm_none rfl
theorem RequestForm.deadlineCompare (tag : Nat) : RequestForm.Statement (.deadlineCompare tag) := requestForm_none rfl
theorem RequestForm.planCompletion : RequestForm.Statement .planCompletion := requestForm_none rfl
theorem RequestForm.sawActionFiring : RequestForm.Statement .sawActionFiring := requestForm_none rfl
theorem RequestForm.lastCutCompare : RequestForm.Statement .lastCutCompare := requestForm_none rfl
theorem RequestForm.sawPulseEnd : RequestForm.Statement .sawPulseEnd := requestForm_none rfl
theorem RequestForm.wasteOpenTarget (target : Nat) : RequestForm.Statement (.wasteOpenTarget target) := requestForm_none rfl
theorem RequestForm.wasteShutTarget (target : Nat) : RequestForm.Statement (.wasteShutTarget target) := requestForm_none rfl
theorem RequestForm.flapPulseEnd : RequestForm.Statement .flapPulseEnd := requestForm_none rfl
theorem RequestForm.deadTimeExpiry : RequestForm.Statement .deadTimeExpiry := requestForm_none rfl
theorem RequestForm.sortCompare (tag : Nat) : RequestForm.Statement (.sortCompare tag) := requestForm_none rfl
theorem RequestForm.kickFiring (bay : BayNo) (tag : Nat) : RequestForm.Statement (.kickFiring bay tag) := requestForm_none rfl
theorem RequestForm.kickPulseEnd (bay : BayNo) : RequestForm.Statement (.kickPulseEnd bay) := requestForm_none rfl
theorem RequestForm.tenonerCompare (lug : Nat) : RequestForm.Statement (.tenonerCompare lug) := requestForm_none rfl
theorem RequestForm.scrubRead : RequestForm.Statement .scrubRead := requestForm_none rfl
theorem RequestForm.lineClearComplete : RequestForm.Statement .lineClearComplete := requestForm_none rfl
theorem RequestForm.holdTimerExpiry (link : LinkNo) : RequestForm.Statement (.holdTimerExpiry link) := requestForm_none rfl
theorem RequestForm.cntntcDelayExpiry : RequestForm.Statement .cntntcDelayExpiry := requestForm_none rfl
theorem RequestForm.cntntcCeilingExpiry : RequestForm.Statement .cntntcCeilingExpiry := requestForm_none rfl
theorem RequestForm.linkSignalUp (link : LinkNo) : RequestForm.Statement (.linkSignalUp link) := requestForm_none rfl
theorem RequestForm.linkSignalLoss (link : LinkNo) : RequestForm.Statement (.linkSignalLoss link) := requestForm_none rfl
theorem RequestForm.frameReceived (link : LinkNo) (bytes : List Byte) : RequestForm.Statement (.frameReceived link bytes) :=
  requestForm_none rfl
theorem RequestForm.frameByteTimeout (link : LinkNo) : RequestForm.Statement (.frameByteTimeout link) := requestForm_none rfl
theorem RequestForm.enrol (link : LinkNo) (number : Nat) (role : Nat) (serial : Nat) (tools : List Nat) : RequestForm.Statement (.enrol link number role serial tools) :=
  requestForm_of rfl (by decide) fun w => by simp_all [Instr.wf]
theorem RequestForm.recrd (link : LinkNo) (number : Nat) (tag : Nat) : RequestForm.Statement (.recrd link number tag) :=
  requestForm_of rfl (by decide) fun w => by simp_all [Instr.wf]
theorem RequestForm.recret (link : LinkNo) (number : Nat) (tag : Nat) : RequestForm.Statement (.recret link number tag) :=
  requestForm_of rfl (by decide) fun w => by simp_all [Instr.wf]
theorem RequestForm.errrd (link : LinkNo) (number : Nat) : RequestForm.Statement (.errrd link number) :=
  requestForm_of rfl (by decide) fun w => by simp_all [Instr.wf]
theorem RequestForm.geold (link : LinkNo) (number : Nat) (geometry : Geometry) : RequestForm.Statement (.geold link number geometry) :=
  requestForm_of rfl (by decide) fun w => by simp_all [Instr.wf]
theorem RequestForm.linclr (link : LinkNo) (number : Nat) : RequestForm.Statement (.linclr link number) :=
  requestForm_of rfl (by decide) fun w => by simp_all [Instr.wf]
theorem RequestForm.zonrd (link : LinkNo) (number : Nat) (zone : Nat) (list : Nat) (first : Nat) : RequestForm.Statement (.zonrd link number zone list first) :=
  requestForm_of rfl (by decide) fun w => by simp_all [Instr.wf]
theorem RequestForm.ctxld (link : LinkNo) (number : Nat) (slot : Nat) (profile : Profile) : RequestForm.Statement (.ctxld link number slot profile) :=
  requestForm_of rfl (by decide) fun w => by simp_all [Instr.wf]
theorem RequestForm.ctxsel (link : LinkNo) (number : Nat) (slot : Nat) : RequestForm.Statement (.ctxsel link number slot) :=
  requestForm_of rfl (by decide) fun w => by simp_all [Instr.wf]
theorem RequestForm.grdld (link : LinkNo) (number : Nat) (species : Nat) (limits : List GradeLimit) : RequestForm.Statement (.grdld link number species limits) :=
  requestForm_of rfl (by decide) fun w => by simp_all [Instr.wf]
theorem RequestForm.lingo (link : LinkNo) (number : Nat) : RequestForm.Statement (.lingo link number) :=
  requestForm_of rfl (by decide) fun w => by simp_all [Instr.wf]
theorem RequestForm.linstp (link : LinkNo) (number : Nat) : RequestForm.Statement (.linstp link number) :=
  requestForm_of rfl (by decide) fun w => by simp_all [Instr.wf]
theorem RequestForm.mapnext (link : LinkNo) (number : Nat) : RequestForm.Statement (.mapnext link number) :=
  requestForm_of rfl (by decide) fun w => by simp_all [Instr.wf]
theorem RequestForm.mappost (link : LinkNo) (number : Nat) (form : MapForm) : RequestForm.Statement (.mappost link number form) :=
  requestForm_of rfl (by decide) fun w => by simp_all [Instr.wf]
theorem RequestForm.outcome (link : LinkNo) (number : Nat) (tag : Nat) (result : Nat) : RequestForm.Statement (.outcome link number tag result) :=
  requestForm_of rfl (by decide) fun w => by simp_all [Instr.wf]
theorem RequestForm.ordadm (link : LinkNo) (number : Nat) (form : OrderForm) : RequestForm.Statement (.ordadm link number form) :=
  requestForm_of rfl (by decide) fun w => by simp_all [Instr.wf]
theorem RequestForm.ordamd (link : LinkNo) (number : Nat) (order : Nat) (ordered : Nat) : RequestForm.Statement (.ordamd link number order ordered) :=
  requestForm_of rfl (by decide) fun w => by simp_all [Instr.wf]
theorem RequestForm.ordcan (link : LinkNo) (number : Nat) (order : Nat) : RequestForm.Statement (.ordcan link number order) :=
  requestForm_of rfl (by decide) fun w => by simp_all [Instr.wf]
theorem RequestForm.ordrem (link : LinkNo) (number : Nat) (order : Nat) : RequestForm.Statement (.ordrem link number order) :=
  requestForm_of rfl (by decide) fun w => by simp_all [Instr.wf]
theorem RequestForm.ordrd (link : LinkNo) (number : Nat) (which : Nat) (value : Nat) : RequestForm.Statement (.ordrd link number which value) :=
  requestForm_of rfl (by decide) fun w => by simp_all [Instr.wf]
theorem RequestForm.bayhld (link : LinkNo) (number : Nat) (bay : Nat) : RequestForm.Statement (.bayhld link number bay) :=
  requestForm_of rfl (by decide) fun w => by simp_all [Instr.wf]
theorem RequestForm.bayrel (link : LinkNo) (number : Nat) (bay : Nat) : RequestForm.Statement (.bayrel link number bay) :=
  requestForm_of rfl (by decide) fun w => by simp_all [Instr.wf]
theorem RequestForm.baycls (link : LinkNo) (number : Nat) (bay : Nat) : RequestForm.Statement (.baycls link number bay) :=
  requestForm_of rfl (by decide) fun w => by simp_all [Instr.wf]
theorem RequestForm.lblrd (link : LinkNo) (number : Nat) (bay : Nat) : RequestForm.Statement (.lblrd link number bay) :=
  requestForm_of rfl (by decide) fun w => by simp_all [Instr.wf]
theorem RequestForm.bdlret (link : LinkNo) (number : Nat) (bay : Nat) (order : Nat) (serial : Nat) : RequestForm.Statement (.bdlret link number bay order serial) :=
  requestForm_of rfl (by decide) fun w => by simp_all [Instr.wf]
theorem RequestForm.ntcset (link : LinkNo) (number : Nat) (settings : Settings) : RequestForm.Statement (.ntcset link number settings) :=
  requestForm_of rfl (by decide) fun w => by simp_all [Instr.wf]
theorem RequestForm.cntrd (link : LinkNo) (number : Nat) : RequestForm.Statement (.cntrd link number) :=
  requestForm_of rfl (by decide) fun w => by simp_all [Instr.wf]
theorem RequestForm.linkrst (link : LinkNo) (number : Nat) (target : Nat) : RequestForm.Statement (.linkrst link number target) :=
  requestForm_of rfl (by decide) fun w => by simp_all [Instr.wf]
theorem RequestForm.transmitFrameSent (link : LinkNo) : RequestForm.Statement (.transmitFrameSent link) := requestForm_none rfl
theorem RequestForm.resetInputAsserted : RequestForm.Statement .resetInputAsserted := requestForm_none rfl

end Sys2Proof.Laws
end

