-- ==== Sys2Proof/Safety.lean ====
section
/-! DEFINITION. The terms in which statements speak: when the part runs, when it is settled between commands, what a command leaves
unchanged, when a request is taken at once and what it is answered, and the laws that every step keeps. -/

namespace Sys2Proof.Machine

open Sys2Proof

/-! Standing of the part. -/

/-- The power-on reset input is not asserted (11.10). -/
abbrev Running (p : Part) : Prop := p.inReset = false

/-- Between two commands: no compare taken at once is left to carry out (R36), and no notice waits for a reply (R206). -/
abbrev Settled (p : Part) : Prop := p.ztr.atOnce = [] ∧ p.lif.deferred = none

/-- The conditions of PERMIT, as R70 names them. -/
def PermitConditions (p : Part) : Prop :=
  p.cpl.run = true ∧ p.ztr.fault = none ∧ p.ztr.geoValid = true
    ∧ (∃ f, (p.ctx p.cpl.active).profile = some f
        ∧ (∃ l, roleLink .moulder p = some l ∧ f.code ∈ (p.link l).tools)
        ∧ (∃ l, roleLink .endmatcher p = some l ∧ f.code ∈ (p.link l).tools))
    ∧ (∃ l, (p.link l).role = some .moulder ∧ (p.link l).state = .enrolled)
    ∧ (∃ l, (p.link l).role = some .scanner ∧ (p.link l).state = .enrolled)
    ∧ (∃ l, (p.link l).role = some .endmatcher ∧ (p.link l).state = .enrolled)
    ∧ 64 ≤ p.rst.free.length

/-- Every output is off (11.10). -/
def OutputsOff (p : Part) : Prop :=
  p.cpl.permit = false ∧ p.acu.sawPulse = none ∧ p.acu.coil = none ∧ ∀ b : BayNo, p.acu.kickPulse[b] = none

/-! What a command leaves unchanged. -/

/-- q is p in every block but the links, and in the Cut Planner but for runnability, report and PERMIT. -/
def SameLine (p q : Part) : Prop :=
  q.inReset = p.inReset ∧ q.rst = p.rst ∧ q.ztr = p.ztr ∧ q.acu = p.acu ∧ q.ort = p.ort ∧ q.bas = p.bas
    ∧ q.cpl = { p.cpl with runnable := q.cpl.runnable, report := q.cpl.report, permit := q.cpl.permit }

/-- A link keeps everything but its two lists and its notice drop counter: frames are added behind those that wait, requests leave from
the head only, and the drop counter does not fall. -/
def SameLink (x y : LinkRec) : Prop :=
  y = { x with requests := y.requests, transmit := y.transmit, drops := y.drops }
    ∧ x.transmit <+: y.transmit ∧ y.requests <:+ x.requests ∧ x.drops ≤ y.drops

/-- Every link is the same link, and the Link Interface's own registers stand. -/
def SameLinks (p q : Part) : Prop :=
  (∀ l : LinkNo, SameLink (p.link l) (q.link l))
    ∧ q.lif = { p.lif with link := q.lif.link, deferred := q.lif.deferred }

/-- t is e, but for what follows every command: PERMIT re-evaluated and frames composed, sent or answered on the links. Everything the
two share is a frame: what e does not change of the state before the command, the command does not change. -/
def After (e t : Part) : Prop := SameLine e t ∧ SameLinks e t

/-- The command answers a next state whose part is e but for what follows every command, with the queue left alone. -/
def Completes (c : Instr) (s : State) (e : Part) : Prop :=
  ∃ t : State, exec c s = .next t ∧ t.pending = s.pending ∧ After e t.part

/-- The command answers a next state with exactly these frames on a link's transmit list, where Completes lets more be added. -/
def LeavesFrames (c : Instr) (s : State) (l : LinkNo) (fs : List Frame) : Prop :=
  ∃ t : State, exec c s = .next t ∧ (t.part.link l).transmit = fs

/-! Requests. -/

/-- A request of this code arriving on the link now is taken at once and reaches its block (R205, R206, R212). -/
abbrev Takes (l : LinkNo) (code : Nat) (p : Part) : Prop :=
  hears l p = true ∧ (p.link l).requests = [] ∧ canTake l p = true ∧ refusal l code p = none

/-- The reply stands in the link's transmit list (R205). -/
def Answered (l : LinkNo) (code number : Nat) (r : Reply) (t : Part) : Prop :=
  (⟨.reply, code, number, .u8 (statusCode r.status) :: r.fields⟩ : Frame) ∈ (t.link l).transmit

/-- The request answers a next state with the reply composed, whose part is e but for what follows every command. -/
def Replies (c : Instr) (l : LinkNo) (code number : Nat) (s : State) (r : Reply) (e : Part) : Prop :=
  ∃ t : State, exec c s = .next t ∧ t.pending = s.pending ∧ Answered l code number r t.part ∧ After e t.part

/-- A slot whose main contents and shadow entry are good and agree (R13, R14). -/
abbrev CleanSlot (i : SlotNo) (p : Part) : Prop :=
  (p.slot i).check = .good ∧ (p.slot i).parityBad = false
    ∧ (p.slot i).shadow = ⟨(p.slot i).gen, shadowOf (p.slot i).contents⟩

/-- The tag names a live strip record, in a clean slot that is read without trace. -/
abbrev HoldsStrip (s : Strip) (p : Part) : Prop :=
  CleanSlot (slotOf s.tag) p ∧ (p.slot (slotOf s.tag)).gen = genOf s.tag ∧ (p.slot (slotOf s.tag)).contents = .strip s

/-- The tag names a live piece record, in a clean slot that is read without trace. -/
abbrev HoldsPiece (x : Piece) (p : Part) : Prop :=
  CleanSlot (slotOf x.tag) p ∧ (p.slot (slotOf x.tag)).gen = genOf x.tag ∧ (p.slot (slotOf x.tag)).contents = .piece x

/-! The laws that every step keeps. -/

/-- The tag that a slot's record carries. -/
def recordTag : Contents → Option Nat
  | .nothing => none
  | .strip s => some s.tag
  | .piece x => some x.tag

/-- The slot's record is bound to the context (R61). -/
def boundTo (c : CtxNo) (x : Slot) : Bool := shadowCtx (shadowOf x.contents) == some c

/-- The laws of the Record Store. An error is a mark beside the stored words (log entry 3), so they speak of damaged slots too. -/
structure StoreLaws (p : Part) : Prop where
  /-- A shadow entry mirrors its record, with the slot's generation (R13). -/
  shadows : ∀ i : SlotNo, (p.slot i).shadow = ⟨(p.slot i).gen, shadowOf (p.slot i).contents⟩
  /-- A record's tag is its slot at the slot's generation (R3, 0.5.2). -/
  tags : ∀ (i : SlotNo) (t : Nat), recordTag (p.slot i).contents = some t → t = tagOf (p.slot i).gen i
  /-- A slot number stands on the free list at most once (R2). -/
  freeOnce : p.rst.free.Nodup
  /-- No slot is both live and on the free list, and each is one of the two (R2). -/
  freeSlots : ∀ i : SlotNo, i ∈ p.rst.free ↔ (p.slot i).contents = .nothing
  /-- Live records and free list add up to 1024 (R2). -/
  total : ((List.finRange 1024).filter fun i => (p.slot i).contents != .nothing).length + p.rst.free.length = 1024
  /-- Each context's reference count is the number of live records bound to it (R61). -/
  references : ∀ c : CtxNo, (p.ctx c).refs = ((List.finRange 1024).filter fun i => boundTo c (p.slot i)).length

/-- The laws of the Order Table and the bays. -/
structure OrderLaws (p : Part) : Prop where
  /-- Bundles retired ≤ bundles opened ≤ bundles ordered, and as many bays as their difference hold a bundle of the order (R163). -/
  counts : ∀ (o : OrderNo) (r : Order), p.order o = some r →
    r.retired ≤ r.opened ∧ r.opened ≤ r.ordered ∧ (baysOf o p).length = r.opened - r.retired
  /-- No bay holds a bundle of an EMPTY slot (R163, R169). -/
  emptySlots : ∀ o : OrderNo, p.order o = none → baysOf o p = []
  /-- An IDLE bay holds no bundle (Table 9-3). -/
  idle : ∀ b : BayNo, (p.bay b).state = .idle → (p.bay b).bundle = none
  /-- No bay holds a bundle of a CANCELLED order (R168). -/
  cancelled : ∀ (o : OrderNo) (r : Order), p.order o = some r → r.state = .cancelled → baysOf o p = []
  /-- A COMPLETE order has all its bundles retired (R167). -/
  complete : ∀ (o : OrderNo) (r : Order), p.order o = some r → r.state = .complete → r.retired = r.ordered

/-- Every block is as a LINE CLEAR leaves it: queues and collections empty, no record live, areas underway 0, a plan in progress marked for
discard, LINE FAULT clear (R27, R57, R73, R93, R135, R172, R191). -/
structure LineCleared (p : Part) : Prop where
  queues : ∀ z : Zone, p.queue z = []
  tracker : p.ztr.cutList = [] ∧ p.ztr.itemA = .none ∧ p.ztr.itemB = .none ∧ p.ztr.fault = none
  planner : p.cpl.queue = [] ∧ ∀ j : PlanJob, p.cpl.job = some j → j.discard = true
  actions : p.acu.saw = [] ∧ p.acu.waste = [] ∧ p.acu.mark = none ∧ ∀ b : BayNo, p.kickQueue b = []
  slots : ∀ i : SlotNo, (p.slot i).contents = .nothing ∧ i ∈ p.rst.free
  contexts : ∀ c : CtxNo, (p.ctx c).refs = 0
  orders : ∀ (o : OrderNo) (r : Order), p.order o = some r → r.reservedArea = 0 ∧ r.transitArea = 0
  bundles : ∀ (b : BayNo) (u : Bundle), (p.bay b).bundle = some u → u.transit = 0 ∧ u.shortTransit = 0

end Sys2Proof.Machine
end

