-- ==== Sys2Proof/Certificates/Slice0/Obligations.lean ====
section
/-! DEFINITION. The statements for the provers, each as a Prop. Every docstring names the rules of spec/ it speaks of. A statement about a
command says for which states and operands it answers a next state, and what that state is: `Completes` and `Replies` name the part that
the command leaves, all of it, and so the frame too. -/

open Sys2Proof Sys2Proof.Machine


/-! The machine as a whole. -/

/-- A step takes the command in front of the queue and runs it with the queue's rest. On an empty queue it idles: that is the model's
choice (log entry 1). -/
def Obligations.StepRunsFrontCommand : Prop :=
  (∀ (c : Instr) (s : State), step { s with pending := c :: s.pending } = exec c s)
    ∧ ∀ p : Part, step ⟨p, []⟩ = .next ⟨p, []⟩

/-- The state after power-on, block by block (R1, R2, R23, R24, R31, R32, R34, R37, R38, R41, R55, R60, R69, R72, R83, R129, R135,
R152, R66, R139, R155, R173, R174, R214, R217, Table 3-7, Table 11-6). That no link has signal is the model's choice (log entry
4), and that no byte is held in reception is its inference (log entry 5). -/
def Obligations.ResetIsPowerOnState : Prop :=
  let p := State.reset.part
  State.reset.pending = [] ∧ p.inReset = false
    ∧ (∀ i : SlotNo, (p.slot i).contents = .nothing ∧ (p.slot i).gen = 0 ∧ CleanSlot i p)
    ∧ p.rst.free.map (·.val) = List.range 1024
    ∧ p.rst.corrected = 0 ∧ p.rst.damaged = 0 ∧ p.rst.shadowed = 0 ∧ p.rst.scrubPtr = 0 ∧ p.rst.scrubInterval = 10
    ∧ p.rst.capture = none ∧ p.rst.overrun = false
    ∧ p.rst.stripRetired = Vector.replicate 6 0 ∧ p.rst.pieceRetired = Vector.replicate 8 0
    ∧ (∀ z : Zone, p.counter z = 0 ∧ (p.zone z).mark = 0 ∧ p.queue z = []) ∧ p.ztr.cutList = []
    ∧ (∀ e ∈ [p.ztr.eyeA, p.ztr.eyeB, p.ztr.eyeC, p.ztr.eyeE, p.ztr.eyeX], e = ⟨false, 0, 0⟩)
    ∧ p.ztr.itemA = .none ∧ p.ztr.itemB = .none ∧ p.ztr.geoValid = false ∧ p.ztr.fault = none
    ∧ p.ztr.untracked = 0 ∧ p.ztr.stray = 0 ∧ p.ztr.load = ⟨false, 0⟩
    ∧ p.ztr.geo = ⟨0, 0, 0, 0, 0, 0, 0, 0, 0, 0, 0, 0, 0, 0, 0, 0, 0, 0, 0, 0, List.replicate 8 (0, 0)⟩
    ∧ p.ztr.compares = [] ∧ p.ztr.due = [] ∧ p.ztr.atOnce = []
    ∧ (∀ c : CtxNo, p.ctx c = ⟨none, 0⟩) ∧ p.cpl.active = 0 ∧ p.cpl.queue = [] ∧ p.cpl.job = none ∧ p.cpl.run = false
    ∧ p.cpl.grades = Vector.replicate 8 (List.replicate 48 ⟨0, 0⟩) ∧ p.cpl.runnable = false
    ∧ p.cpl.permit = false ∧ p.cpl.report = [.run, .geometry, .context, .moulder, .scanner, .endmatcher]
    ∧ p.acu.saw = [] ∧ p.acu.waste = [] ∧ p.acu.mark = none ∧ p.acu.coil = none ∧ p.acu.lastCut = none
    ∧ p.acu.flapOpen = false ∧ (∀ b : BayNo, p.kickQueue b = []) ∧ p.acu.sawPulse = none
    ∧ p.acu.lastCoil = none ∧ p.acu.dead = none ∧ (∀ b : BayNo, p.acu.kickPulse[b] = none)
    ∧ p.acu.sawWidth = 20 ∧ p.acu.flapWidth = 30 ∧ p.acu.deadTime = 10 ∧ p.acu.kickWidth = 40
    ∧ (∀ o : OrderNo, p.order o = none) ∧ p.ort.seq = 0
    ∧ (∀ b : BayNo, p.bay b = ⟨.idle, false, false, none⟩)
    ∧ (∀ l : LinkNo, p.link l = ⟨.down, false, none, 0, [], none, [], [], [], 0, 0⟩)
    ∧ p.lif.delay = 20 ∧ p.lif.hold = 2000 ∧ p.lif.coalesce = none ∧ p.lif.clear = none ∧ p.lif.deferred = none

/-- The laws that every step keeps, below, hold of the state after reset; and every output is off there (R69, R129, 11.10). They are
the law of PERMIT (R70), the emptiness of the model's own fields (log entries 2 and 6), and the laws of records and bundles (R2,
R61, R163). -/
def Obligations.InvariantsHoldAtReset : Prop :=
  (State.reset.part.cpl.permit = true → PermitConditions State.reset.part) ∧ Settled State.reset.part
    ∧ OutputsOff State.reset.part ∧ StoreLaws State.reset.part ∧ OrderLaws State.reset.part

/-- R70: PERMIT is on only while RUN is set, no LINE FAULT stands, the geometry is valid, the active context is LOADED and runnable,
MOULDER, SCANNER and ENDMATCHER are enrolled, and at least 64 slots are free. Every command keeps this law, in whatever state it
is taken. -/
def Obligations.PermitLawKeptByEveryStep : Prop :=
  ∀ s t : State, (s.part.cpl.permit = true → PermitConditions s.part) → step s = .next t →
    (t.part.cpl.permit = true → PermitConditions t.part)

/-- R70 to R72: after every command but an assertion of the reset input, PERMIT is on when its conditions hold, unless a LINE CLEAR
still waits for its completion (log entry 12); and report and runnability are those of the state left. -/
def Obligations.PermitFollowsItsConditions : Prop :=
  ∀ (c : Instr) (s t : State), exec c s = .next t → t.part.inReset = false →
    (PermitConditions t.part → t.part.lif.clear = none → t.part.cpl.permit = true)
      ∧ (t.part.cpl.report = [] ↔ PermitConditions t.part)
      ∧ t.part.cpl.report = permitReport t.part
      ∧ t.part.cpl.runnable = runnableCtx t.part.cpl.active t.part

/-- The model's own fields are empty between two commands, and every step keeps them so: no compare taken at once is left over (R36;
log entry 2), no notice waits for a reply (log entry 6). -/
def Obligations.SettledKeptByEveryStep : Prop :=
  ∀ s t : State, Settled s.part → step s = .next t → Settled t.part

/-- 11.10, R217: the assertion turns every output off and changes nothing else; while it stands every command but its release leaves
the part as it is, save that the level at a link's receive pair is what a later release finds. What the held part does with a
command is the model's choice (log entry 13). R217: POWER_ON_RESET brings the whole part to its power-on state, whatever state it
finds; a link with signal takes signal up at once, the supervisor's to UP and a station's to WAITING, with ANNC sent on it (R207,
R211), and nothing else is sent. That a link keeps its level, that nothing of a frame is held, and ANNC's presence bytes for role
and serial are the model's (log entries 4, 5 and 7). -/
def Obligations.ResetInputAndPowerOn : Prop :=
  ((∀ s : State, exec .resetInputAsserted s = .next { s with part := { s.part with
        inReset := true
        cpl.permit := false
        acu.sawPulse := none
        acu.coil := none
        acu.kickPulse := Vector.replicate 8 none } })
      ∧ ∀ (c : Instr) (s : State), s.part.inReset = true → c ≠ .powerOnReset → c ≠ .resetInputAsserted →
        exec c s = .next (match c with
          | .linkSignalUp l => { s with part := s.part.setLink l { s.part.link l with signal := true } }
          | .linkSignalLoss l => { s with part := s.part.setLink l { s.part.link l with signal := false } }
          | _ => s))
  ∧ (∀ s : State, ∃ t : State, exec .powerOnReset s = .next t ∧ t.pending = s.pending
      ∧ t.part = { Part.reset with lif.link := t.part.lif.link }
      ∧ ∀ l : LinkNo, t.part.link l =
        if (s.part.link l).signal then
          { linkReset0 with
            signal := true
            state := if l = 0 then .up else .waiting
            transmit := [⟨.notice, 0x80, 0, [.u32 0x464C0014, .u8 l.val, .u8 1, .u8 0, .u8 0, .u16 2000]⟩] }
        else linkReset0)

/-! Frames and requests on the wire. -/

/-- R202, Table 11-1: decoding the fields of a well-formed request as the encoder writes them gives the request back, for every
request and every value of its operands that its fields can hold. The widths that the manual leaves open are the model's choice
(log entry 7). -/
def Obligations.DecodedRequestIsEncodedRequest : Prop :=
  ∀ (i : Instr) (l : LinkNo) (code number : Nat) (payload : List Byte), i.wf = true →
    requestForm i = some (l, code, number, payload) → decodeRequest l code number payload = .request i

/-- R203, Table 11-1: the receiver finds a frame behind any bytes without a start marker, and takes from it the kind, code, number and
payload it was made of, with every byte after it left over. R203, R204: a frame whose check bytes are not those of its bytes is
discarded, and the search goes on from the byte after its start marker. -/
def Obligations.FramesAreReceivedOrDiscarded : Prop :=
  (∀ (noise payload rest : List Byte) (kind code number : Nat), 0xD4#8 ∉ noise → kind < 256 → code < 256 → number < 256 →
      payload.length < 256 →
      receive (noise ++ frameBytes kind code number payload ++ rest) = .whole kind code number payload rest)
  ∧ (∀ (noise payload rest : List Byte) (kind code number : Nat) (hi lo : Byte), 0xD4#8 ∉ noise → payload.length < 256 →
      let body := [BitVec.ofNat 8 kind, BitVec.ofNat 8 code, BitVec.ofNat 8 number, BitVec.ofNat 8 payload.length] ++ payload
      hi ++ lo ≠ crc16 body →
      receive (noise ++ 0xD4#8 :: (body ++ [hi, lo]) ++ rest) = .bad (body ++ [hi, lo] ++ rest))

/-- R203, R205: a well-formed request received whole on a link that hears joins the tail of the link's request list, and nothing of
the line changes; the requests before it may be answered by the Link Interface itself, in their order, but this one waits to be
taken. That it waits even at the head of the list, and that the Link Interface answers its own heads by the end of this command,
is the model's choice (log entry 13). R205: a request that arrives while 8 stand in its link's list is discarded, and the frame
error counter rises. -/
def Obligations.FrameReceivedQueuesRequest : Prop :=
  (∀ (l : LinkNo) (i : Instr) (code number : Nat) (payload : List Byte) (s : State), Running s.part → Settled s.part →
      hears l s.part = true → (s.part.link l).rx = [] → (s.part.link l).requests.length < 8 → i.wf = true →
      requestForm i = some (l, code, number, payload) → payload.length < 256 →
      ∃ t : State, exec (.frameReceived l (frameBytes 1 code number payload)) s = .next t ∧ t.pending = s.pending
        ∧ After (s.part.setLink l { s.part.link l with requests := (s.part.link l).requests ++ [.request i] }) t.part
        ∧ (t.part.link l).requests.getLast? = some (.request i))
  ∧ (∀ (l : LinkNo) (i : Instr) (code number : Nat) (payload : List Byte) (s : State), Running s.part → Settled s.part →
      hears l s.part = true → (s.part.link l).rx = [] → 8 ≤ (s.part.link l).requests.length →
      (s.part.link l).frameErrors < 4294967295 → i.wf = true → requestForm i = some (l, code, number, payload) → payload.length < 256 →
      Completes (.frameReceived l (frameBytes 1 code number payload)) s
        (s.part.setLink l { s.part.link l with frameErrors := (s.part.link l).frameErrors + 1 }))

/-- R203: a frame whose bytes stop for more than 1 ms is discarded and the frame error counter rises; with no further start marker
among the bytes it held, the receiver searches anew. R203: the pause lies behind every byte held, so a part frame found behind the
marker of the one discarded is discarded and counted too, and nothing is held any more, whatever was (log entry 19). R206: the
frame sent leaves the head of its link's transmit list, and where no request waits and PERMIT is as its conditions give it,
nothing is added. R206: a notice that finds 56 or more frames waiting on its link is not sent, and the link's notice drop counter
rises. Here the notice is CNTNTC, at the end of a timer of R214; with no request waiting the transmit list stands as it was. -/
def Obligations.LinkLinesEmptyTheirLists : Prop :=
  (∀ (l : LinkNo) (held : List Byte) (s : State), Running s.part → Settled s.part → hears l s.part = true →
      (s.part.link l).rx = 0xD4#8 :: held → 0xD4#8 ∉ held → (s.part.link l).frameErrors < 4294967295 →
      Completes (.frameByteTimeout l) s
        (s.part.setLink l { s.part.link l with rx := [], frameErrors := (s.part.link l).frameErrors + 1 }))
  ∧ ((∀ (l : LinkNo) (s : State), Running s.part → Settled s.part → hears l s.part = true →
        ∃ t : State, exec (.frameByteTimeout l) s = .next t ∧ t.pending = s.pending ∧ (t.part.link l).rx = [])
      ∧ ∀ (l : LinkNo) (a b : List Byte) (s : State), Running s.part → Settled s.part → hears l s.part = true →
        (s.part.link l).rx = 0xD4#8 :: (a ++ 0xD4#8 :: b) → 0xD4#8 ∉ a → 0xD4#8 ∉ b → b.length < 4 →
        (s.part.link l).frameErrors < 4294967294 →
        Completes (.frameByteTimeout l) s
          (s.part.setLink l { s.part.link l with rx := [], frameErrors := (s.part.link l).frameErrors + 2 }))
  ∧ (∀ (l : LinkNo) (f : Frame) (rest : List Frame) (s : State), Running s.part → Settled s.part →
      (s.part.link l).transmit = f :: rest →
      Completes (.transmitFrameSent l) s (s.part.setLink l { s.part.link l with transmit := rest })
        ∧ ((s.part.link l).requests = [] → permitNow s.part = s.part.cpl.permit → LeavesFrames (.transmitFrameSent l) s l rest))
  ∧ (∀ c ∈ [Instr.cntntcDelayExpiry, Instr.cntntcCeilingExpiry], ∀ (k : Coalesce) (s : State), Running s.part → Settled s.part →
      s.part.lif.coalesce = some k → (s.part.link 0).state = .up → 56 ≤ (s.part.link 0).transmit.length →
      (s.part.link 0).drops < 4294967295 →
      Completes c s { s.part.setLink 0 { s.part.link 0 with drops := (s.part.link 0).drops + 1 } with lif.coalesce := none }
        ∧ ((s.part.link 0).requests = [] → LeavesFrames c s 0 (s.part.link 0).transmit))

/-- R212: a request that a station link may not send is answered NOTENROLLED or WRONGROLE before any block sees it, and it changes
nothing of the line: NOTENROLLED on a station link that is not ENROLLED, unless it is ENROL; WRONGROLE where Table 11-3 does not
give the code to the link's sender. -/
def Obligations.RefusedRequestChangesNothing : Prop :=
  ∀ (c : Instr) (l : LinkNo) (code number : Nat) (payload : List Byte) (s : State), Running s.part → Settled s.part →
    requestForm c = some (l, code, number, payload) → hears l s.part = true → (s.part.link l).requests = [] →
    canTake l s.part = true →
    ((l ≠ 0 ∧ code ≠ 0x01 ∧ (s.part.link l).state ≠ .enrolled) →
      ∃ t : State, exec c s = .next t ∧ t.pending = s.pending ∧ Answered l code number ⟨.notEnrolled, []⟩ t.part ∧ After s.part t.part)
    ∧ ((l = 0 ∨ code = 0x01 ∨ (s.part.link l).state = .enrolled) → permitted code (senderOf l s.part) = false →
      ∃ t : State, exec c s = .next t ∧ t.pending = s.pending ∧ Answered l code number ⟨.wrongRole, []⟩ t.part ∧ After s.part t.part)

/-! Zone counters and the load sensor (chapter 2, R137 to R139). -/

/-- R32, R34, R36: a forward step raises the zone's counter by one modulo 2^24; at deficit 0 the high-water mark goes with it; and
every compare of the zone at the value taken is taken, its own step then due. Nothing else changes. R32, R34, R36: a reverse step
lowers the zone's counter by one modulo 2^24 and takes no compare; while the deficit it leaves is no more than Z_rev, or the
geometry is invalid, nothing else changes. R34, R35: a reverse step that makes the deficit exceed Z_rev marks the zone UNSURE and
sets the mark to the counter. Here zone A holds one entry, a strip before the B-eye: it is flagged UNSURE and becomes REJECTING
with that cause, its deadline compare cancelled. R8, R35: the marking beyond Z_rev, zone by zone. In zone B a strip in ENTERING_B,
SCANNING, MAPPED or PLANNING becomes REJECTING with UNSURE, out of the planner queue, its deadline compare cancelled; one in
REJECTING keeps its cause; of a PLANNED one each PLANNED piece, here one without a reservation, is retired DISCARDED. In zone C a
piece in BELT_C and a strip on the cut list are flagged and keep their states. In zone E a piece in BELT_E or UNSORTED is flagged;
one in ASSIGNED loses its kick, its area leaves the transit of bundle and order, and it becomes UNSORTED. Where both queue and cut
list hold a record, that the queue's is marked first is the model's choice (log entry 24). -/
def Obligations.ZoneStepsCount : Prop :=
  (∀ (z : LinearZone) (s : State), Running s.part → Settled s.part →
      let p := s.part
      let n := wrap z.zone (p.counter z.zone + 1)
      let taken := fun c : Compare => eventZone c.event == z.zone && c.target == n
      Completes (.zoneForwardStep z) s
        { p.setZone z.zone { p.zone z.zone with
            counter := n
            mark := if deficit z.zone p = 0 then n else (p.zone z.zone).mark } with
          ztr.compares := p.ztr.compares.filter fun c => !taken c
          ztr.due := p.ztr.due ++ (p.ztr.compares.filter taken).map (·.event) })
  ∧ (∀ (z : LinearZone) (s : State), Running s.part → Settled s.part →
      let p := s.part
      let q := p.setZone z.zone { p.zone z.zone with counter := minus z.zone (p.counter z.zone) 1 }
      (p.ztr.geoValid = true → deficit z.zone q ≤ p.ztr.geo.zRev) → Completes (.zoneReverseStep z) s q)
  ∧ (∀ (x : Strip) (e : Entry) (s : State), Running s.part → Settled s.part →
      let p := s.part
      let n := minus .A (p.counter .A) 1
      p.ztr.geoValid = true → p.ztr.geo.zRev < deficit .A (p.setZone .A { p.zone .A with counter := n }) →
      p.queue .A = [e] → e.tag = some x.tag → HoldsStrip x p → (x.state = .enteringA ∨ x.state = .inA) →
      Completes (.zoneReverseStep .A) s
        (writeStrip { x with unsure := true, state := .rejecting, reject := some .unsure }
          (cancel (.deadline x.tag) (leavePlanner x.tag (p.setZone .A { p.zone .A with counter := n, mark := n })))))
  ∧ (∀ (e : Entry) (s : State), Running s.part → Settled s.part →
      let p := s.part
      let n := fun z : Zone => minus z (p.counter z) 1
      let q := fun z : Zone => p.setZone z { p.zone z with counter := n z, mark := n z }
      let beyond := fun z : Zone => p.ztr.geo.zRev < deficit z (p.setZone z { p.zone z with counter := n z })
      p.ztr.geoValid = true →
      (∀ x : Strip, beyond .B → p.queue .B = [e] → e.tag = some x.tag → HoldsStrip x p →
        let rejected := writeStrip { x with unsure := true, state := .rejecting, reject := some .unsure }
          (cancel (.deadline x.tag) (leavePlanner x.tag (q .B)))
        (x.state ∈ [.enteringB, .scanning, .mapped, .planning] → Completes (.zoneReverseStep .B) s rejected)
        ∧ (x.state = .rejecting → Completes (.zoneReverseStep .B) s (writeStrip { x with unsure := true } (q .B)))
        ∧ (∀ (y : Piece) (pl : PlanEntry) (value : Nat), x.state = .planned → x.plan = some ⟨value, [pl]⟩ → pl.tag = some y.tag →
          HoldsPiece y p → y.state = .planned → y.reserved = none → slotOf y.tag ≠ slotOf x.tag →
          Completes (.zoneReverseStep .B) s (retireSlot (slotOf y.tag) (.piece .discarded) rejected)))
      ∧ (∀ (x : Strip) (y : Piece) (lead : Nat), beyond .C → p.queue .C = [e] → e.tag = some y.tag → HoldsPiece y p → y.state = .beltC →
        p.ztr.cutList = [⟨x.tag, lead⟩] → HoldsStrip x p → x.state = .cutting → slotOf y.tag ≠ slotOf x.tag →
        Completes (.zoneReverseStep .C) s (writeStrip { x with unsure := true } (writePiece { y with unsure := true } (q .C))))
      ∧ (∀ y : Piece, beyond .E → p.queue .E = [e] → e.tag = some y.tag → HoldsPiece y p →
        ((y.state = .beltE ∨ y.state = .unsorted) → Completes (.zoneReverseStep .E) s (writePiece { y with unsure := true } (q .E)))
        ∧ (∀ (b : BayNo) (u : Bundle) (r : Order), y.state = .assigned → y.bay = some b → (p.bay b).state = .opened →
          (p.bay b).bundle = some u → p.order u.slot = some r → r.shortLength ≤ y.len →
          Completes (.zoneReverseStep .E) s
            (writePiece { y with unsure := true, state := .unsorted, bay := none, serial := none }
              (((cancel (.kick b y.tag) ((q .E).setKickQueue b ((p.kickQueue b).filter fun k => k.tag != y.tag))).setBay b { p.bay b with
                bundle := some { u with transit := u.transit - y.area } }).setOrder u.slot (some { r with
                  transitArea := r.transitArea - y.area }))))))

/-- R33, R36: a lug pulse with the load sensor empty raises the lug counter by one modulo 65,536, takes the compares at it, and keeps
the sample. R138, R139: an occupied lug with no piece to match makes an untagged lug table entry with the lug's number; as the
head of an empty table it has its expiry armed at lug + N_dis + W_DE. R39, R52, R138, R140: an occupied lug within the zone C
head's window takes the head's piece: it becomes LUG with the lug's number, its zone C expiry is cancelled, and its lug table
entry is ARMED with the tenoner compare at lug + N_ten. That its lead position becomes the lug number too is the model's inference
(log entry 20). -/
def Obligations.LugPulseCountsAndLoads : Prop :=
  (∀ s : State, Running s.part → Settled s.part →
      let p := s.part
      let n := wrap .D (p.counter .D + 1)
      let taken := fun c : Compare => eventZone c.event == .D && c.target == n
      Completes (.lugPulse false) s
        { p.setZone .D { p.zone .D with counter := n } with
          ztr.load := ⟨false, n⟩
          ztr.compares := p.ztr.compares.filter fun c => !taken c
          ztr.due := p.ztr.due ++ (p.ztr.compares.filter taken).map (·.event) })
  ∧ (∀ s : State, Running s.part → Settled s.part →
      let p := s.part
      let n := wrap .D (p.counter .D + 1)
      let q := takeCompares .D n (p.setZone .D { p.zone .D with counter := n })
      let v := wrap .D (n + p.ztr.geo.nDis)
      p.ztr.geoValid = true → p.queue .C = [] → p.queue .D = [] → strictlyAhead .D (wrap .D (v + p.ztr.geo.wDE)) n = true →
      Completes (.lugPulse true) s
        { q.setQueue .D [⟨none, n, v, p.ztr.geo.wDE, .none⟩] with
          ztr.load := ⟨true, n⟩
          ztr.compares := q.ztr.compares ++ [⟨.expiry .D, wrap .D (v + p.ztr.geo.wDE)⟩] })
  ∧ (∀ (x : Piece) (e : Entry) (s : State), Running s.part → Settled s.part →
      let p := s.part
      let n := wrap .D (p.counter .D + 1)
      let v := wrap .D (n + p.ztr.geo.nDis)
      let q := cancel (.expiry .C) (takeCompares .D n (p.setZone .D { p.zone .D with counter := n }))
      p.ztr.geoValid = true → p.queue .C = [e] → e.tag = some x.tag → HoldsPiece x p →
      inWindow .C (p.counter .C) e.expect e.half = true → p.queue .D = [] →
      strictlyAhead .D (wrap .D (v + p.ztr.geo.wDE)) n = true → strictlyAhead .D (wrap .D (n + p.ztr.geo.nTen)) n = true →
      Completes (.lugPulse true) s
        { writePiece { x with state := .lug, lug := some n, lead := some n }
            ((q.setQueue .C []).setQueue .D [⟨some x.tag, n, v, p.ztr.geo.wDE, .armed⟩]) with
          ztr.load := ⟨true, n⟩
          ztr.compares := q.ztr.compares ++ [⟨.expiry .D, wrap .D (v + p.ztr.geo.wDE)⟩,
            ⟨.tenoner n, wrap .D (n + p.ztr.geo.nTen)⟩] })

/-! Eyes (chapter 2). -/

/-- The leading edge command of each eye, with the eye. -/
def leadingEdges : List (Instr × (Tracker → Eye)) :=
  [(.aEyeLeadingEdge, (·.eyeA)), (.bEyeLeadingEdge, (·.eyeB)), (.cEyeLeadingEdge, (·.eyeC)), (.eEyeLeadingEdge, (·.eyeE)),
    (.endEyeLeadingEdge, (·.eyeX))]

/-- The trailing edge command of each eye, with the eye. -/
def trailingEdges : List (Instr × (Tracker → Eye)) :=
  [(.aEyeTrailingEdge, (·.eyeA)), (.bEyeTrailingEdge, (·.eyeB)), (.cEyeTrailingEdge, (·.eyeC)),
    (.eyeTrailingEdge .eEye, (·.eyeE)), (.eyeTrailingEdge .endEye, (·.eyeX))]

/-- A capture that may match the head of the zone before: its command, the zone of the match, the zone entered, whether it is no edge, and the
part with its edge or lug pulse recorded. -/
structure Handoff where
  command : Instr
  up : Zone
  down : Zone
  noEdge : Part → Bool
  edge : Part → Part

/-- The A–B capture (R45). -/
def captureAB : Handoff := ⟨.bEyeLeadingEdge, .A, .B, (·.ztr.eyeB.blocked), fun p => { p with
  ztr.eyeB := { p.ztr.eyeB with blocked := true, lead := p.counter .B } }⟩

/-- The C–D capture (R52). -/
def captureCD : Handoff := ⟨.lugPulse true, .C, .D, fun _ => false, fun p =>
  let n := wrap .D (p.counter .D + 1)
  { takeCompares .D n (p.setZone .D { p.zone .D with counter := n }) with ztr.load := ⟨true, n⟩ }⟩

/-- The D–E capture (R53). -/
def captureDE : Handoff := ⟨.eEyeLeadingEdge, .D, .E, (·.ztr.eyeE.blocked), fun p => { p with
  ztr.eyeE := { p.ztr.eyeE with blocked := true, lead := p.counter .E } }⟩

/-- R37: an edge is a change of the eye's state. A blocked eye has no leading edge and a clear one no trailing edge: such a command,
the first clearing after power-on among them, changes nothing. R37: a trailing edge of the E-eye or of the end eye changes the
eye's state and last-edge position and starts no further event. R39, R40, R47, R56: a capture whose position does not follow the
queue's tail in forward order enters nothing and raises the stray counter; at the A-eye this comes before any allocation. That the
order is tested before the room is the model's inference (log entry 11). One that follows it, but finds the queue full, enters
nothing and sets LINE FAULT with QUEUE_OVERFLOW and the zone; the head that it matches leaves the zone before and is lost: an
untagged one is removed, a strip not PLANNED, or a piece neither ASSIGNED nor reserved, is retired LOST. R72, R213: the change of
LINE FAULT, with the fall of PERMIT if it was on, is reported by one LINSTA with PERMIT, report and fault; the fault's fields are
log entry 7's. -/
def Obligations.EdgesChangeTheirEye : Prop :=
  ((∀ x ∈ leadingEdges, ∀ s : State, Running s.part → Settled s.part → (x.2 s.part.ztr).blocked = true → Completes x.1 s s.part)
      ∧ ∀ x ∈ trailingEdges, ∀ s : State, Running s.part → Settled s.part → (x.2 s.part.ztr).blocked = false →
        Completes x.1 s s.part)
  ∧ (∀ s : State, Running s.part → Settled s.part →
      (s.part.ztr.eyeE.blocked = true → Completes (.eyeTrailingEdge .eEye) s
        { s.part with ztr.eyeE := { s.part.ztr.eyeE with blocked := false, trail := s.part.counter .E } })
      ∧ (s.part.ztr.eyeX.blocked = true → Completes (.eyeTrailingEdge .endEye) s
        { s.part with ztr.eyeX := { s.part.ztr.eyeX with blocked := false, trail := s.part.counter .E } }))
  ∧ (∀ (t : Entry) (s : State), Running s.part → Settled s.part → s.part.ztr.geoValid = true → s.part.ztr.stray < 4294967295 →
      (let p := { s.part with ztr.eyeA := { s.part.ztr.eyeA with blocked := true, lead := s.part.counter .A } }
        let f := { p with ztr.fault := some (.overflow .A) }
        s.part.ztr.eyeA.blocked = false → (p.queue .A).getLast? = some t →
        (strictlyAhead .A (p.counter .A) t.lead = false → Completes .aEyeLeadingEdge s { p with ztr.stray := p.ztr.stray + 1 })
        ∧ (strictlyAhead .A (p.counter .A) t.lead = true → 32 ≤ (p.queue .A).length → p.ztr.fault = none →
          Completes .aEyeLeadingEdge s f
          ∧ ((p.link 0).state = .up → (p.link 0).transmit.length < 56 → (p.link 0).requests = [] →
            ∃ u : State, exec .aEyeLeadingEdge s = .next u ∧ (u.part.link 0).transmit = (p.link 0).transmit
              ++ [⟨.notice, 0x85, 0, .u8 0 :: .u8 (permitReport f).length :: (permitReport f).map (fun c => .u8 c.ctorIdx)
                ++ [.u8 1, .u8 1, .u8 0, .u8 1, .u8 0]⟩])))
      ∧ ∀ c ∈ [captureAB, captureCD, captureDE],
        let p := c.edge s.part
        let f := fun q : Part => { q with ztr.fault := some (.overflow c.down) }
        c.noEdge s.part = false → (p.queue c.down).getLast? = some t →
        (strictlyAhead c.down (p.counter c.down) t.lead = false → Completes c.command s { p with ztr.stray := p.ztr.stray + 1 })
        ∧ (strictlyAhead c.down (p.counter c.down) t.lead = true → (if c.down = .B then 32 else 64) ≤ (p.queue c.down).length →
          p.ztr.fault = none →
          (p.queue c.up = [] → Completes c.command s (f p))
          ∧ ∀ e : Entry, p.queue c.up = [e] → inWindow c.up (p.counter c.up) e.expect e.half = true →
            let q := f (cancel (.expiry c.up) (entryGone c.up e (p.setQueue c.up [])))
            (e.tag = none → Completes c.command s q)
            ∧ (∀ x : Strip, e.tag = some x.tag → HoldsStrip x q → x.state ≠ .planned →
              Completes c.command s (retireSlot (slotOf x.tag) (.strip .lost) (cancel (.deadline x.tag) (leavePlanner x.tag q))))
            ∧ (∀ y : Piece, e.tag = some y.tag → HoldsPiece y q → y.state ≠ .assigned → y.reserved = none →
              Completes c.command s (retireSlot (slotOf y.tag) (.piece .lost) q))))

/-- R3, R42, R44, R61: an A-eye leading edge with the geometry valid, the active context LOADED and a slot free takes the free list's
head, advances its generation, and writes a strip in ENTERING_A bound to the active context; its entry joins zone A with the
window of the A-B handoff, becomes the eye item, and, as the head, has its expiry armed. That the slot taken is not read, whatever
errors it holds, is the model's choice (log entry 22). R37, R42: an A-eye leading edge with the geometry invalid is taken into no
queue, and the untracked infeed counter rises. With the geometry valid and the active context EMPTY or the free list empty, the
item enters zone A untagged, and the counter rises too. -/
def Obligations.AEyeLeadingEdgeEntersItem : Prop :=
  (∀ (f : Profile) (i : SlotNo) (rest : List SlotNo) (s : State), Running s.part → Settled s.part →
      let p := s.part
      let n := p.counter .A
      let v := wrap .A (n + p.ztr.geo.gAB)
      let gen := if 63 ≤ (p.slot i).gen then 1 else (p.slot i).gen + 1
      let tag := gen * 1024 + i.val
      let strip : Strip := ⟨tag, p.cpl.active, f.species, .enteringA, false, false, false, some n, none, none, none, none, none, none,
        none, none, 0⟩
      let q := p.setSlot i ⟨gen, .strip strip, .good, ⟨gen, shadowOf (.strip strip)⟩, false⟩
      p.ztr.eyeA.blocked = false → p.ztr.geoValid = true → (p.ctx p.cpl.active).profile = some f → p.rst.free = i :: rest →
      p.queue .A = [] → strictlyAhead .A (wrap .A (v + p.ztr.geo.wAB)) n = true →
      Completes .aEyeLeadingEdge s
        { (q.setCtx p.cpl.active { p.ctx p.cpl.active with refs := (p.ctx p.cpl.active).refs + 1 }).setQueue .A
            [⟨some tag, n, v, p.ztr.geo.wAB, .none⟩] with
          rst.free := rest
          ztr.eyeA := { p.ztr.eyeA with blocked := true, lead := n }
          ztr.itemA := .tag tag
          ztr.compares := p.ztr.compares ++ [⟨.expiry .A, wrap .A (v + p.ztr.geo.wAB)⟩] })
  ∧ (∀ s : State, Running s.part → Settled s.part → s.part.ztr.eyeA.blocked = false → s.part.ztr.untracked < 4294967295 →
      let p := { s.part with
        ztr.eyeA := { s.part.ztr.eyeA with blocked := true, lead := s.part.counter .A }
        ztr.untracked := s.part.ztr.untracked + 1 }
      let v := wrap .A (p.counter .A + p.ztr.geo.gAB)
      let e : Entry := ⟨none, p.counter .A, v, p.ztr.geo.wAB, .none⟩
      (p.ztr.geoValid = false → Completes .aEyeLeadingEdge s p)
      ∧ (p.ztr.geoValid = true → ((p.ctx p.cpl.active).profile = none ∨ p.rst.free = []) → p.queue .A = [] →
        strictlyAhead .A (wrap .A (v + p.ztr.geo.wAB)) (p.counter .A) = true →
        Completes .aEyeLeadingEdge s
          { p.setQueue .A [e] with
            ztr.itemA := .untagged
            ztr.compares := p.ztr.compares ++ [⟨.expiry .A, wrap .A (v + p.ztr.geo.wAB)⟩] }))

/-- R38, R43: an A-eye trailing edge writes L_A in the eye item's record. A strip in ENTERING_A no longer than L_max of its own
context becomes IN_A; a longer one is flagged SUSPECT and becomes REJECTING with SUSPECT_LENGTH. The eye item becomes none. -/
def Obligations.AEyeTrailingEdgeMeasures : Prop :=
  ∀ (x : Strip) (f : Profile) (lead : Nat) (s : State), Running s.part → Settled s.part →
    let p := { s.part with
      ztr.eyeA := { s.part.ztr.eyeA with blocked := false, trail := s.part.counter .A }
      ztr.itemA := .none }
    let len := minus .A (p.counter .A) lead
    s.part.ztr.eyeA.blocked = true → p.ztr.geoValid = true → s.part.ztr.itemA = .tag x.tag → HoldsStrip x p → x.state = .enteringA →
    x.leadA = some lead → (p.ctx x.ctx).profile = some f →
    (len ≤ f.maxLen → Completes .aEyeTrailingEdge s (writeStrip { x with lenA := some len, state := .inA } p))
    ∧ (f.maxLen < len → Completes .aEyeTrailingEdge s
        (writeStrip { x with lenA := some len, suspect := true, state := .rejecting, reject := some .suspectLength }
          (cancel (.deadline x.tag) (leavePlanner x.tag p))))

/-- R45: a B-eye leading edge within the zone A head's window matches it: the head's expiry is cancelled, the strip becomes ENTERING_B
with lead_B, and its entry joins zone B with the window of the B-C handoff and becomes the eye item. R46, R61: a B-eye leading
edge with nothing to match makes an UNTRACKED strip in REJECTING with that cause, bound to the active context; with the active
context EMPTY, or no slot free, it makes an untagged entry. That the slot taken is not read, whatever errors it holds, is the
model's choice (log entry 22). -/
def Obligations.BEyeLeadingEdgeEntersItem : Prop :=
  (∀ (x : Strip) (e : Entry) (s : State), Running s.part → Settled s.part →
      let p := cancel (.expiry .A) s.part
      let n := p.counter .B
      let v := wrap .B (n + p.ztr.geo.gBC)
      p.ztr.eyeB.blocked = false → p.ztr.geoValid = true → p.queue .A = [e] → e.tag = some x.tag → HoldsStrip x p →
      inWindow .A (p.counter .A) e.expect e.half = true → (x.state = .enteringA ∨ x.state = .inA) → p.queue .B = [] →
      strictlyAhead .B (wrap .B (v + p.ztr.geo.wBC)) n = true →
      Completes .bEyeLeadingEdge s
        { writeStrip { x with leadB := some n, state := .enteringB }
            ((p.setQueue .A []).setQueue .B [⟨some x.tag, n, v, p.ztr.geo.wBC, .none⟩]) with
          ztr.eyeB := { p.ztr.eyeB with blocked := true, lead := n }
          ztr.itemB := .tag x.tag
          ztr.compares := p.ztr.compares ++ [⟨.expiry .B, wrap .B (v + p.ztr.geo.wBC)⟩] })
  ∧ (∀ (s : State), Running s.part → Settled s.part →
      let p := { s.part with ztr.eyeB := { s.part.ztr.eyeB with blocked := true, lead := s.part.counter .B } }
      let n := p.counter .B
      let v := wrap .B (n + p.ztr.geo.gBC)
      let entry := fun t : Option Nat => (⟨t, n, v, p.ztr.geo.wBC, .none⟩ : Entry)
      let cs := p.ztr.compares ++ [⟨.expiry .B, wrap .B (v + p.ztr.geo.wBC)⟩]
      s.part.ztr.eyeB.blocked = false → p.ztr.geoValid = true → p.queue .A = [] → p.queue .B = [] →
      strictlyAhead .B (wrap .B (v + p.ztr.geo.wBC)) n = true →
      (∀ (f : Profile) (i : SlotNo) (rest : List SlotNo), (p.ctx p.cpl.active).profile = some f → p.rst.free = i :: rest →
        let gen := if 63 ≤ (p.slot i).gen then 1 else (p.slot i).gen + 1
        let tag := gen * 1024 + i.val
        let strip : Strip := ⟨tag, p.cpl.active, f.species, .rejecting, false, true, false, none, none, some n, none, none, none,
          some .untracked, none, none, 0⟩
        let q := p.setSlot i ⟨gen, .strip strip, .good, ⟨gen, shadowOf (.strip strip)⟩, false⟩
        Completes .bEyeLeadingEdge s
          { (q.setCtx p.cpl.active { p.ctx p.cpl.active with refs := (p.ctx p.cpl.active).refs + 1 }).setQueue .B [entry (some tag)] with
            rst.free := rest
            ztr.itemB := .tag tag
            ztr.compares := cs })
      ∧ ((p.ctx p.cpl.active).profile = none ∨ p.rst.free = [] → Completes .bEyeLeadingEdge s
          { p.setQueue .B [entry none] with
            ztr.itemB := .untagged
            ztr.compares := cs }))

/-- R49, R75: a B-eye trailing edge writes L_B; where the two lengths agree within L_tol the strip becomes SCANNING with its deadline
compare armed at lead_B + D_deadline, and STRIPSCAN with its tag and length is sent to the enrolled SCANNER; else it is SUSPECT
and REJECTING. -/
def Obligations.BEyeTrailingEdgeOffersScan : Prop :=
  ∀ (x : Strip) (l : LinkNo) (lead lenA : Nat) (s : State), Running s.part → Settled s.part →
    let p := { s.part with
      ztr.eyeB := { s.part.ztr.eyeB with blocked := false, trail := s.part.counter .B }
      ztr.itemB := .none }
    let len := minus .B (p.counter .B) lead
    let d := wrap .B (lead + p.ztr.geo.dDeadline)
    s.part.ztr.eyeB.blocked = true → p.ztr.geoValid = true → s.part.ztr.itemB = .tag x.tag → HoldsStrip x p → x.state = .enteringB →
    x.leadB = some lead → x.lenA = some lenA →
    (len ≤ lenA + p.ztr.geo.lTol → lenA ≤ len + p.ztr.geo.lTol → strictlyAhead .B d (p.counter .B) = true →
      enrolledLink .scanner p = some l → (p.link l).transmit.length < 56 →
      Completes .bEyeTrailingEdge s
        { (writeStrip { x with lenB := some len, state := .scanning, deadline := some d } p).setLink l { p.link l with
            transmit := (p.link l).transmit ++ [⟨.notice, 0x81, 0, [.u16 x.tag, .u32 len]⟩] } with
          ztr.compares := p.ztr.compares ++ [⟨.deadline x.tag, d⟩] })
    ∧ ((lenA + p.ztr.geo.lTol < len ∨ len + p.ztr.geo.lTol < lenA) → Completes .bEyeTrailingEdge s
        (writeStrip { x with lenB := some len, suspect := true, state := .rejecting, reject := some .suspectLength }
          (cancel (.deadline x.tag) (leavePlanner x.tag p))))

/-- R50, R89, R122, R214: a strip matched at the C-eye in any state but PLANNED and CUTTING is wasted whole, sized by L_B, and retired
REJECTED, one countable event; one not yet REJECTING leaves the planner queue and loses its deadline compare first. -/
def Obligations.CEyeWastesUnplannedStrip : Prop :=
  ∀ (x : Strip) (e : Entry) (len : Nat) (s : State), Running s.part → Settled s.part →
    let p := cancel (.expiry .B) s.part
    let n := p.counter .C
    let o := minus .C (n + p.ztr.geo.dFlap) p.ztr.geo.pFlap
    let t := minus .C (n + p.ztr.geo.dFlap + len) p.ztr.geo.pFlap
    let q := if x.state = .rejecting then p else cancel (.deadline x.tag) (leavePlanner x.tag p)
    let w := { q.setQueue .B [] with
      ztr.eyeC := { p.ztr.eyeC with blocked := true, lead := n }
      ztr.compares := q.ztr.compares ++ [⟨.wasteOpen o, o⟩, ⟨.wasteShut t, t⟩]
      acu.waste := [⟨o, some t, .waiting⟩] }
    p.ztr.eyeC.blocked = false → p.ztr.geoValid = true → p.queue .B = [e] → e.tag = some x.tag → HoldsStrip x p →
    inWindow .B (p.counter .B) e.expect e.half = true → x.state ≠ .planned → x.state ≠ .cutting → x.lenB = some len →
    p.acu.waste = [] → strictlyAhead .C o n = true → strictlyAhead .C t n = true → p.lif.coalesce = none → 0 < p.lif.delay →
    Completes .cEyeLeadingEdge s
      { retireSlot (slotOf x.tag) (.strip .rejected) w with
        lif.coalesce := some ⟨0, 1, 0, p.lif.delay, 8 * p.lif.delay⟩ }

/-- R111, R112, R118, R119: a PLANNED strip matched at the C-eye that meets the five conditions of scheduling becomes CUTTING: its
cuts join the saw queue at their targets, it joins the cut list, each piece becomes BELT_C in zone C, and each waste interval
enters the waste list. Here the plan is of one piece, the saw queue, the cut list and zone C are empty, and no compare armed is
taken at once. R118, R120, R121, R122: a PLANNED strip matched at the C-eye that fails a condition of scheduling (no room in the
saw queue, in the cut list or in zone C; the first cut too near the recovery reference; a saw target overdue; the first place not
behind zone C's tail) becomes REJECTING with SCHEDULE, its piece, here one, is retired DISCARDED with its reservation released,
and it is wasted whole and retired REJECTED, one countable event; saw queue, cut list and zone C stand. Here the waste list is
empty. -/
def Obligations.CEyeSchedulesPlannedStrip : Prop :=
  (∀ (x : Strip) (y : Piece) (e : Entry) (value : Nat) (pl : PlanEntry) (s : State), Running s.part → Settled s.part →
      let p := cancel (.expiry .B) s.part
      let n := p.counter .C
      let f := profileOf x.ctx p
      let cuts := (cutsOf f.kerf (x.lenB.getD 0) [(pl.start, pl.foot)]).map fun c => minus .C (n + p.ztr.geo.dSaw + c) p.ztr.geo.pSaw
      let flaps := (wasteOf f.kerf (x.lenB.getD 0) [(pl.start, pl.foot)]).map fun w =>
        (minus .C (n + p.ztr.geo.dFlap + w.1) p.ztr.geo.pFlap, minus .C (n + p.ztr.geo.dFlap + w.2) p.ztr.geo.pFlap)
      let pos := wrap .C (n + pl.start)
      let v := wrap .C (pos + p.ztr.geo.gCD)
      let q := writePiece { y with state := .beltC, lead := some pos }
        (writeStrip { x with state := .cutting, leadC := some n, pendingSaw := cuts.length } p)
      let r := flaps.foldl (fun q w => enterWaste w.1 (some w.2) q)
        { (q.setQueue .B []).setQueue .C [⟨some y.tag, pos, v, p.ztr.geo.wCD, .none⟩] with
          ztr.eyeC := { p.ztr.eyeC with blocked := true, lead := n }
          ztr.cutList := [⟨x.tag, n⟩]
          ztr.compares := p.ztr.compares ++ cuts.map (fun t => ⟨.saw t, t⟩) ++ [⟨.expiry .C, wrap .C (v + p.ztr.geo.wCD)⟩]
          acu.saw := cuts.map fun t => ⟨t, x.tag⟩ }
      p.ztr.eyeC.blocked = false → p.ztr.geoValid = true → p.queue .B = [e] → e.tag = some x.tag → HoldsStrip x p →
      inWindow .B (p.counter .B) e.expect e.half = true → x.state = .planned → x.plan = some ⟨value, [pl]⟩ → pl.tag = some y.tag →
      HoldsPiece y p → slotOf y.tag ≠ slotOf x.tag → p.acu.saw = [] → p.acu.lastCut = none → p.ztr.cutList = [] → p.queue .C = [] →
      cuts ≠ [] → (∀ t ∈ cuts, strictlyAhead .C t n = true) → strictlyAhead .C (wrap .C (v + p.ztr.geo.wCD)) n = true →
      r.ztr.atOnce = [] → Completes .cEyeLeadingEdge s r)
  ∧ (∀ (x : Strip) (y : Piece) (e : Entry) (value len : Nat) (pl : PlanEntry) (s : State), Running s.part → Settled s.part →
      let p := cancel (.expiry .B) s.part
      let n := p.counter .C
      let o := minus .C (n + p.ztr.geo.dFlap) p.ztr.geo.pFlap
      let t := minus .C (n + p.ztr.geo.dFlap + len) p.ztr.geo.pFlap
      let cuts := (cutsOf (profileOf x.ctx p).kerf len [(pl.start, pl.foot)]).map fun c =>
        minus .C (n + p.ztr.geo.dSaw + c) p.ztr.geo.pSaw
      let reference := fun r : Nat => (∃ z, p.acu.saw.getLast? = some z ∧ z.target = r) ∨ (p.acu.saw = [] ∧ p.acu.lastCut = some r)
      let fails := 32 < p.acu.saw.length + cuts.length ∨ 32 ≤ p.ztr.cutList.length
        ∨ (∃ a ∈ cuts.head?, ∃ r, reference r ∧ (ahead .C a r < p.ztr.geo.rSaw ∨ 8388608 ≤ ahead .C a r))
        ∨ (∃ a ∈ cuts, 8388608 ≤ ahead .C a n) ∨ 64 ≤ (p.queue .C).length
        ∨ ∃ z ∈ (p.queue .C).getLast?, precedes .C z.lead (wrap .C (n + pl.start)) = false
      let q := cancel (.deadline x.tag) (leavePlanner x.tag p)
      let w := { q.setQueue .B [] with
        ztr.eyeC := { p.ztr.eyeC with blocked := true, lead := n }
        ztr.compares := q.ztr.compares ++ [⟨.wasteOpen o, o⟩, ⟨.wasteShut t, t⟩]
        acu.waste := [⟨o, some t, .waiting⟩] }
      let wasted := fun r : Part => Completes .cEyeLeadingEdge s
        { retireSlot (slotOf x.tag) (.strip .rejected) (retireSlot (slotOf y.tag) (.piece .discarded) r) with
          lif.coalesce := some ⟨0, 1, 0, p.lif.delay, 8 * p.lif.delay⟩ }
      p.ztr.eyeC.blocked = false → p.ztr.geoValid = true → p.queue .B = [e] → e.tag = some x.tag → HoldsStrip x p →
      inWindow .B (p.counter .B) e.expect e.half = true → x.state = .planned → x.plan = some ⟨value, [pl]⟩ → pl.tag = some y.tag →
      HoldsPiece y p → y.state = .planned → slotOf y.tag ≠ slotOf x.tag → x.lenB = some len → fails →
      p.acu.waste = [] → strictlyAhead .C o n = true → strictlyAhead .C t n = true → p.lif.coalesce = none → 0 < p.lif.delay →
      (y.reserved = none → wasted w)
      ∧ ∀ (a : OrderNo) (r : Order), y.reserved = some a → p.order a = some r →
        wasted (w.setOrder a (some { r with reservedArea := r.reservedArea - y.area })))

/-- R50, R122, R123: a C-eye leading edge that matches nothing wastes the item whole without its length: an open-ended interval enters
the waste list, and the mark names it. R50, R122, R126, R127: whatever intervals stand in the waste list, the one of an unknown
item, or of a strip wasted whole, is entered beside them by the operation whose joins and merge O27 states; here no target armed
is taken at once. R51, R123: a C-eye trailing edge closes the open-ended interval that the mark names, at its own position; with
no mark it changes the eye alone. -/
def Obligations.CEyeOpensAndClosesInterval : Prop :=
  (∀ s : State, Running s.part → Settled s.part →
      let p := s.part
      let n := p.counter .C
      let o := minus .C (n + p.ztr.geo.dFlap) p.ztr.geo.pFlap
      p.ztr.eyeC.blocked = false → p.ztr.geoValid = true → p.queue .B = [] → p.acu.waste = [] → strictlyAhead .C o n = true →
      Completes .cEyeLeadingEdge s { p with
        ztr.eyeC := { p.ztr.eyeC with blocked := true, lead := n }
        ztr.compares := p.ztr.compares ++ [⟨.wasteOpen o, o⟩]
        acu.waste := [⟨o, none, .waiting⟩]
        acu.mark := some o })
  ∧ (∀ s : State, Running s.part → Settled s.part →
      let p := s.part
      let n := p.counter .C
      let o := minus .C (n + p.ztr.geo.dFlap) p.ztr.geo.pFlap
      let seen := fun q : Part => { q with ztr.eyeC := { p.ztr.eyeC with blocked := true, lead := n } }
      p.ztr.eyeC.blocked = false → p.ztr.geoValid = true →
      (p.queue .B = [] → (enterWaste o none (seen p)).ztr.atOnce = [] → Completes .cEyeLeadingEdge s (enterWaste o none (seen p)))
      ∧ ∀ (x : Strip) (e : Entry) (len : Nat), p.queue .B = [e] → e.tag = some x.tag → HoldsStrip x p → x.state = .rejecting →
        inWindow .B (p.counter .B) e.expect e.half = true → x.lenB = some len → p.lif.coalesce = none → 0 < p.lif.delay →
        let t := minus .C (n + p.ztr.geo.dFlap + len) p.ztr.geo.pFlap
        let w := enterWaste o (some t) (seen (cancel (.expiry .B) (p.setQueue .B [])))
        w.ztr.atOnce = [] → Completes .cEyeLeadingEdge s
          { retireSlot (slotOf x.tag) (.strip .rejected) w with
            lif.coalesce := some ⟨0, 1, 0, p.lif.delay, 8 * p.lif.delay⟩ })
  ∧ (∀ s : State, Running s.part → Settled s.part →
      let p := { s.part with ztr.eyeC := { s.part.ztr.eyeC with blocked := false, trail := s.part.counter .C } }
      let t := minus .C (p.counter .C + p.ztr.geo.dFlap) p.ztr.geo.pFlap
      s.part.ztr.eyeC.blocked = true → p.ztr.geoValid = true →
      (p.acu.mark = none → Completes .cEyeTrailingEdge s p)
      ∧ (∀ (o : Nat) (w : WasteState), p.acu.mark = some o → p.acu.waste = [⟨o, none, w⟩] → strictlyAhead .C t (p.counter .C) = true →
        Completes .cEyeTrailingEdge s { p with
          ztr.compares := p.ztr.compares ++ [⟨.wasteShut t, t⟩]
          acu.mark := none
          acu.waste := [⟨o, some t, w⟩] }))

/-- R53, R140, R142: an E-eye leading edge within the lug table head's window takes its piece to zone E: the expiry and the tenoner
compare are cancelled, the piece becomes BELT_E, and its sort compare is armed at lead_E + D_sort. With nothing to match the entry
is untagged. R54: an end eye leading edge within the zone E head's window sends its item to the end bin: an UNSORTED piece is
retired END_BIN. A capture that matches nothing raises the stray counter and makes no entry. -/
def Obligations.SorterEyesMoveItems : Prop :=
  (∀ s : State, Running s.part → Settled s.part →
      let p := s.part
      let n := p.counter .E
      let v := wrap .E (n + p.ztr.geo.gEX)
      let far := wrap .E (v + p.ztr.geo.wEX)
      let sort := wrap .E (n + p.ztr.geo.dSort)
      p.ztr.eyeE.blocked = false → p.ztr.geoValid = true → p.queue .E = [] → strictlyAhead .E far n = true →
      (∀ (y : Piece) (e : Entry), p.queue .D = [e] → e.tag = some y.tag → HoldsPiece y p →
        inWindow .D (p.counter .D) e.expect e.half = true → strictlyAhead .E sort n = true →
        let q := cancel (.expiry .D) (cancel (.tenoner e.lead) p)
        Completes .eEyeLeadingEdge s
          { writePiece { y with state := .beltE, lead := some n }
              ((q.setQueue .D []).setQueue .E [⟨some y.tag, n, v, p.ztr.geo.wEX, .none⟩]) with
            ztr.eyeE := { p.ztr.eyeE with blocked := true, lead := n }
            ztr.compares := q.ztr.compares ++ [⟨.expiry .E, far⟩, ⟨.sort y.tag, sort⟩] })
      ∧ (p.queue .D = [] → Completes .eEyeLeadingEdge s
          { p.setQueue .E [⟨none, n, v, p.ztr.geo.wEX, .none⟩] with
            ztr.eyeE := { p.ztr.eyeE with blocked := true, lead := n }
            ztr.compares := p.ztr.compares ++ [⟨.expiry .E, far⟩] }))
  ∧ (∀ s : State, Running s.part → Settled s.part →
      let p := { s.part with ztr.eyeX := { s.part.ztr.eyeX with blocked := true, lead := s.part.counter .E } }
      s.part.ztr.eyeX.blocked = false → p.ztr.geoValid = true →
      (∀ (y : Piece) (e : Entry), p.queue .E = [e] → e.tag = some y.tag → HoldsPiece y p → y.state = .unsorted → y.reserved = none →
        inWindow .E (p.counter .E) e.expect e.half = true →
        Completes .endEyeLeadingEdge s
          (retireSlot (slotOf y.tag) (.piece .endBin) (cancel (.expiry .E) (cancel (.sort y.tag) (p.setQueue .E [])))))
      ∧ (p.queue .E = [] → p.ztr.stray < 4294967295 → Completes .endEyeLeadingEdge s { p with ztr.stray := p.ztr.stray + 1 }))

/-! Compares and targets taken (R36, R116). -/

/-- The commands that carry out one compare or target, with the event each waits for. -/
def eventCommand : Event → Instr
  | .expiry z => .handoffExpiry z
  | .deadline t => .deadlineCompare t
  | .sort t => .sortCompare t
  | .tenoner l => .tenonerCompare l
  | .lastCut => .lastCutCompare
  | .saw _ => .sawActionFiring
  | .wasteOpen t => .wasteOpenTarget t
  | .wasteShut t => .wasteShutTarget t
  | .kick b t => .kickFiring b t

/-- R36, R116: a compare or target that its zone's counter has not taken is no event: its command changes nothing. That a command may
come without its event is the model's own (log entry 2). R12, R44, R47: the expiry of zone A's head is a loss: an untagged head is
removed; a strip before the B-eye is retired LOST. R12, R47, R139, R143: the expiry of a head is a loss in every zone. An untagged
head is removed. A strip leaves the planner queue, its deadline compare cancelled, and is retired LOST; of a PLANNED one each
PLANNED piece is first released and retired DISCARDED, here one reserved to an order. A piece's tenoner or sort compare is
cancelled; its reservation is released, or, in ASSIGNED, its kick is cancelled and its area leaves the transit of bundle and
order; and it is retired LOST. R8, R84: the deadline compare of a strip in SCANNING or MAPPED makes it REJECTING with NO_MAP, its
tag out of the planner queue; of a strip in any other state it only is spent. -/
def Obligations.TrackerComparesAct : Prop :=
  (∀ (e : Event) (s : State), Running s.part → Settled s.part → e ∉ s.part.ztr.due →
      (∀ t, e = .saw t → ∀ x ∈ s.part.acu.saw.head?, x.target = t) → Completes (eventCommand e) s s.part)
  ∧ (∀ (e : Entry) (s : State), Running s.part → Settled s.part →
      let p := cancel (.expiry .A) (s.part.setQueue .A [])
      .expiry .A ∈ s.part.ztr.due → s.part.queue .A = [e] →
      (e.tag = none → Completes (.handoffExpiry .A) s p)
      ∧ (∀ x : Strip, e.tag = some x.tag → HoldsStrip x p → x.state ≠ .planned →
        Completes (.handoffExpiry .A) s (retireSlot (slotOf x.tag) (.strip .lost) (cancel (.deadline x.tag) (leavePlanner x.tag p)))))
  ∧ (∀ (z : Zone) (e : Entry) (s : State), Running s.part → Settled s.part →
      let p := cancel (.expiry z) (entryGone z e (s.part.setQueue z []))
      let less := fun (o : OrderNo) (r : Order) (area : Nat) (q : Part) =>
        q.setOrder o (some { r with reservedArea := r.reservedArea - area })
      .expiry z ∈ s.part.ztr.due → s.part.queue z = [e] →
      (e.tag = none → Completes (.handoffExpiry z) s p)
      ∧ (∀ x : Strip, e.tag = some x.tag → HoldsStrip x p →
        let q := cancel (.deadline x.tag) (leavePlanner x.tag p)
        (x.state ≠ .planned → Completes (.handoffExpiry z) s (retireSlot (slotOf x.tag) (.strip .lost) q))
        ∧ (∀ (y : Piece) (pl : PlanEntry) (value : Nat) (o : OrderNo) (r : Order), x.state = .planned → x.plan = some ⟨value, [pl]⟩ →
          pl.tag = some y.tag → HoldsPiece y p → y.state = .planned → y.reserved = some o → p.order o = some r →
          slotOf y.tag ≠ slotOf x.tag →
          Completes (.handoffExpiry z) s (retireSlot (slotOf x.tag) (.strip .lost)
            (retireSlot (slotOf y.tag) (.piece .discarded) (less o r y.area q)))))
      ∧ (∀ y : Piece, e.tag = some y.tag → HoldsPiece y p →
        let lost := fun q : Part => Completes (.handoffExpiry z) s (retireSlot (slotOf y.tag) (.piece .lost) q)
        (y.state ≠ .assigned → y.reserved = none → lost p)
        ∧ (∀ (o : OrderNo) (r : Order), y.state ≠ .assigned → y.reserved = some o → p.order o = some r → lost (less o r y.area p))
        ∧ (∀ (b : BayNo) (u : Bundle) (r : Order), y.state = .assigned → y.bay = some b → (p.bay b).state = .opened →
          (p.bay b).bundle = some u → p.order u.slot = some r → r.shortLength ≤ y.len →
          lost (((cancel (.kick b y.tag) (p.setKickQueue b ((p.kickQueue b).filter fun k => k.tag != y.tag))).setBay b { p.bay b with
            bundle := some { u with transit := u.transit - y.area } }).setOrder u.slot (some { r with
              transitArea := r.transitArea - y.area })))))
  ∧ (∀ (x : Strip) (s : State), Running s.part → Settled s.part → .deadline x.tag ∈ s.part.ztr.due → HoldsStrip x s.part →
      (x.state = .scanning ∨ x.state = .mapped → Completes (.deadlineCompare x.tag) s
        (writeStrip { x with state := .rejecting, reject := some .noMap } (cancel (.deadline x.tag) (leavePlanner x.tag s.part))))
      ∧ (x.state ≠ .scanning → x.state ≠ .mapped → Completes (.deadlineCompare x.tag) s
        { s.part with ztr.due := s.part.ztr.due.filter fun e => e != .deadline x.tag }))

/-- R141: the tenoner compare of a loaded lug sends LUGTEN with tag, lug number, class length, end trim and profile code to the
enrolled ENDMATCHER and makes the entry SENT; with none enrolled the entry becomes UNSENT, and where no request waits and PERMIT
is as its conditions give it nothing is sent on any link. The lug number's two bytes are the model's choice (log entry 7). -/
def Obligations.TenonerCompareSendsLugten : Prop :=
  ∀ (y : Piece) (e : Entry) (s : State), Running s.part → Settled s.part →
    let p := { s.part with ztr.due := s.part.ztr.due.filter fun d => d != .tenoner e.lead }
    .tenoner e.lead ∈ s.part.ztr.due → p.queue .D = [e] → e.tag = some y.tag → HoldsPiece y p → y.state = .lug →
    (∀ l : LinkNo, enrolledLink .endmatcher p = some l → (p.link l).transmit.length < 56 →
      Completes (.tenonerCompare e.lead) s
        ((p.setQueue .D [{ e with status := .sent }]).setLink l { p.link l with
          transmit := (p.link l).transmit ++ [⟨.notice, 0x82, 0,
            [.u16 y.tag, .u16 e.lead, .u16 y.len, .u16 (profileOf y.ctx p).trim, .u8 (profileOf y.ctx p).code]⟩] }))
    ∧ (enrolledLink .endmatcher p = none → Completes (.tenonerCompare e.lead) s (p.setQueue .D [{ e with status := .unsent }])
      ∧ (permitNow p = p.cpl.permit → (∀ l : LinkNo, (p.link l).requests = []) →
        ∀ l : LinkNo, LeavesFrames (.tenonerCompare e.lead) s l (p.link l).transmit))

/-! The saw, the waste flap and the kickers (chapter 6). -/

/-- R121, R124, R125: the saw's head fires when its target has been taken: SAW is driven for its width, the head leaves the queue, the
last cut position is the target with its compare armed at R_saw beyond, and the strip's pending count falls by one; at 0 the strip
is retired CUT_DONE and leaves the cut list, its pieces live on. R121: the zone C counter reaches R_saw past the last cut: the
last cut position is dropped. R125, R132: the end of a pulse turns its own output off, and touches no record. -/
def Obligations.SawFiresAndPulsesEnd : Prop :=
  (∀ (x : Strip) (t : Nat) (rest : List SawEntry) (s : State), Running s.part → Settled s.part →
      let p := { s.part with ztr.due := s.part.ztr.due.filter fun e => e != .saw t }
      let q := cancel .lastCut p
      let r := { q with
        acu.sawPulse := some p.acu.sawWidth
        acu.saw := rest
        acu.lastCut := some t
        ztr.compares := q.ztr.compares ++ [⟨.lastCut, wrap .C (t + p.ztr.geo.rSaw)⟩] }
      p.acu.saw = ⟨t, x.tag⟩ :: rest → .saw t ∈ s.part.ztr.due → HoldsStrip x p →
      strictlyAhead .C (wrap .C (t + p.ztr.geo.rSaw)) (p.counter .C) = true →
      (2 ≤ x.pendingSaw → Completes .sawActionFiring s (writeStrip { x with pendingSaw := x.pendingSaw - 1 } r))
      ∧ (x.pendingSaw = 1 → Completes .sawActionFiring s
          (retireSlot (slotOf x.tag) (.strip .cutDone) { r with ztr.cutList := r.ztr.cutList.filter fun e => e.tag != x.tag })))
  ∧ (∀ s : State, Running s.part → Settled s.part → .lastCut ∈ s.part.ztr.due →
      Completes .lastCutCompare s { s.part with
        ztr.due := s.part.ztr.due.filter fun e => e != .lastCut
        acu.lastCut := none })
  ∧ (∀ (b : BayNo) (s : State), Running s.part → Settled s.part →
      Completes .sawPulseEnd s { s.part with acu.sawPulse := none }
      ∧ Completes (.kickPulseEnd b) s { s.part with acu.kickPulse := s.part.acu.kickPulse.set b none })

/-- Two intervals overlap, or touch: one opens within the other, its two ends included; an open-ended one reaches forward without end (R126). -/
def IntervalsMeet (a b : WasteEntry) : Prop :=
  let within := fun (x : Nat) (c : WasteEntry) => match c.shutT with
    | some t => minus .C x c.openT ≤ minus .C t c.openT
    | none => minus .C x c.openT < 8388608
  within b.openT a ∨ within a.openT b

/-- The state of Table 6-3 with the same open progress and a shut target not taken. -/
def shutAhead : WasteState → WasteState
  | .waiting => .waiting
  | .waitingShut => .waiting
  | .openDue => .openDue
  | .bothDue => .openDue
  | .opened => .opened
  | .shutDue => .opened

/-- R128, R129: an open target of a WAITING interval is taken: with the coil pair OFF, and the last pulse the same coil's or its dead
time over, the open pulse starts and the interval is OPENED; with the dead time still running the interval is OPEN_DUE and no coil
is on. R128, R129: a shut target of an OPENED interval is taken: with the coil pair OFF and no dead time running the shut pulse
starts and the interval leaves the list; while the open pulse is still on it becomes SHUT_DUE. R129, R134: at the end of a flap
pulse the pair is OFF and the dead time in force starts; a shut pulse that is owed on the other coil then waits for its end, and
starts at it; a dead time of 0 lets it start at once. R126, R127, R129: a waste interval entered beside one that it does not meet
stands at its place in forward order; one that meets an entry joins it: the earliest open target with its open progress, the
furthest shut target, taken only if that one was. Between two entries that it meets it makes one of all three; an open-ended one
leaves the joined entry open-ended, named by the mark. Where both open at one target, that the entry's progress is kept is the
model's choice (log entry 27), and that a shut target taken ahead of its open target stays spent its inference (log entry 23). An
OPENED entry joined with one whose shut target was taken owes its shut pulse, which starts at once where the coil pair is OFF and
no dead time holds it. With 64 entries and none met, the last entry is extended over it. Nothing else changes but the targets
armed and the pulse that starts. -/
def Obligations.FlapServesOwedPulses : Prop :=
  (∀ (t : Nat) (shut : Option Nat) (s : State), Running s.part → Settled s.part →
      let p := { s.part with ztr.due := s.part.ztr.due.filter fun e => e != Event.wasteOpen t }
      Event.wasteOpen t ∈ s.part.ztr.due → p.acu.waste = [⟨t, shut, .waiting⟩] → p.acu.coil = none →
      ((p.acu.lastCoil ≠ some .shutting ∨ p.acu.dead = none) → Completes (.wasteOpenTarget t) s { p with
        acu.waste := [⟨t, shut, .opened⟩]
        acu.coil := some (.opening, p.acu.flapWidth)
        acu.dead := none
        acu.flapOpen := true })
      ∧ (p.acu.lastCoil = some .shutting → p.acu.dead ≠ none →
        Completes (.wasteOpenTarget t) s { p with acu.waste := [⟨t, shut, .openDue⟩] }))
  ∧ (∀ (o t : Nat) (s : State), Running s.part → Settled s.part →
      let p := { s.part with ztr.due := s.part.ztr.due.filter fun e => e != Event.wasteShut t }
      Event.wasteShut t ∈ s.part.ztr.due → p.acu.waste = [⟨o, some t, .opened⟩] →
      (p.acu.coil = none → p.acu.dead = none → Completes (.wasteShutTarget t) s { p with
        acu.waste := []
        acu.coil := some (.shutting, p.acu.flapWidth)
        acu.flapOpen := false })
      ∧ (p.acu.coil ≠ none → Completes (.wasteShutTarget t) s { p with acu.waste := [⟨o, some t, .shutDue⟩] }))
  ∧ (∀ (o t w : Nat) (s : State), Running s.part → Settled s.part →
      let p := s.part
      let shut := { p with
        acu.waste := []
        acu.coil := some (.shutting, p.acu.flapWidth)
        acu.lastCoil := some .opening
        acu.dead := none
        acu.flapOpen := false }
      p.acu.waste = [⟨o, some t, .shutDue⟩] →
      (p.acu.coil = some (.opening, w) → 0 < p.acu.deadTime → Completes .flapPulseEnd s { p with
        acu.coil := none
        acu.lastCoil := some .opening
        acu.dead := some p.acu.deadTime })
      ∧ (p.acu.coil = some (.opening, w) → p.acu.deadTime = 0 → Completes .flapPulseEnd s shut)
      ∧ (p.acu.coil = none → p.acu.lastCoil = some .opening → p.acu.dead ≠ none → Completes .deadTimeExpiry s shut))
  ∧ ((∀ (o : Nat) (t : Option Nat) (p : Part), ∃ (es : List WasteEntry) (m : Option Nat) (cs : List Compare) (due now : List Event),
        let q := { p with
          acu.waste := es
          acu.mark := m
          ztr.compares := cs
          ztr.due := due
          ztr.atOnce := now }
        enterWaste o t p = q ∨ enterWaste o t p = serveFlap q)
      ∧ (∀ (o t o' t' : Nat) (w : WasteState) (p : Part), p.acu.waste = [⟨o', some t', w⟩] →
        let r := enterWaste o (some t) p
        let inside := minus .C o o' ≤ minus .C t' o' ∧ minus .C o o' < 8388608
        let before := strictlyAhead .C o' o = true ∧ minus .C o' o ≤ minus .C t o
        (inside → strictlyAhead .C t t' = true → r.acu.waste = [⟨o', some t, shutAhead w⟩])
        ∧ (inside → (t = t' ∨ strictlyAhead .C t' t = true) → r.acu.waste = [⟨o', some t', w⟩])
        ∧ (before → strictlyAhead .C t t' = true → r.acu.waste = [⟨o, some t, .waiting⟩])
        ∧ (before → strictlyAhead .C t' t = true → shutAhead w = w → r.acu.waste = [⟨o, some t', .waiting⟩])
        ∧ (before → strictlyAhead .C t' t = true → shutAhead w ≠ w → r.acu.waste = [⟨o, some t', .waitingShut⟩])
        ∧ (inside → (enterWaste o none p).acu.waste = [⟨o', none, shutAhead w⟩] ∧ (enterWaste o none p).acu.mark = some o')
        ∧ (¬ IntervalsMeet ⟨o, some t, .waiting⟩ ⟨o', some t', w⟩ → r.acu.mark = p.acu.mark
          ∧ (strictlyAhead .C o o' = true → r.acu.waste = [⟨o', some t', w⟩, ⟨o, some t, .waiting⟩])
          ∧ (strictlyAhead .C o' o = true → r.acu.waste = [⟨o, some t, .waiting⟩, ⟨o', some t', w⟩]))
        ∧ (inside → w = .waiting → strictlyAhead .C t t' = true → strictlyAhead .C o' (p.counter .C) = true →
          strictlyAhead .C t (p.counter .C) = true →
          r.ztr.compares = (cancel (.wasteShut t') (cancel (.wasteOpen o') p)).ztr.compares ++ [⟨.wasteOpen o', o'⟩, ⟨.wasteShut t, t⟩]))
      ∧ (∀ (o t o₁ t₁ o₂ t₂ : Nat) (w₁ w₂ : WasteState) (p : Part), p.acu.waste = [⟨o₁, some t₁, w₁⟩, ⟨o₂, some t₂, w₂⟩] →
        minus .C o o₁ ≤ minus .C t₁ o₁ → minus .C o o₁ < 8388608 → minus .C o₂ o ≤ minus .C t o → strictlyAhead .C o₂ o₁ = true →
        strictlyAhead .C t t₁ = true → strictlyAhead .C t₂ t = true → shutAhead w₂ = w₂ →
        (enterWaste o (some t) p).acu.waste = [⟨o₁, some t₂, shutAhead w₁⟩])
      ∧ (∀ (o t o₁ t₁ o₂ t₂ : Nat) (w₂ : WasteState) (p : Part), p.acu.waste = [⟨o₁, some t₁, .opened⟩, ⟨o₂, some t₂, w₂⟩] →
        minus .C o o₁ ≤ minus .C t₁ o₁ → minus .C o o₁ < 8388608 → minus .C o₂ o ≤ minus .C t o → strictlyAhead .C o₂ o₁ = true →
        strictlyAhead .C t t₁ = true → strictlyAhead .C t₂ t = true → (w₂ = .waitingShut ∨ w₂ = .bothDue) →
        let held := p.acu.coil.isSome = true ∨ (p.acu.lastCoil = some .opening ∧ p.acu.dead.isSome = true)
        (held → (enterWaste o (some t) p).acu = { p.acu with waste := [⟨o₁, some t₂, .shutDue⟩] })
        ∧ (¬ held → (enterWaste o (some t) p).acu = { p.acu with
          waste := []
          coil := some (.shutting, p.acu.flapWidth)
          dead := none
          flapOpen := false }))
      ∧ (∀ (o t o' t' : Nat) (w : WasteState) (rest : List WasteEntry) (p : Part), p.acu.waste = rest ++ [⟨o', some t', w⟩] →
        rest.length = 63 → (∀ x ∈ rest, precedes .C x.openT o' = true ∧ ¬ IntervalsMeet x ⟨o', some t, w⟩
          ∧ ¬ IntervalsMeet ⟨o, some t, .waiting⟩ x) →
        ¬ IntervalsMeet ⟨o, some t, .waiting⟩ ⟨o', some t', w⟩ → strictlyAhead .C o o' = true → strictlyAhead .C t t' = true →
        (enterWaste o (some t) p).acu.waste = rest ++ [⟨o', some t, shutAhead w⟩]))

/-- R131, R132, R161, R183: a kick fires on its ASSIGNED piece: KICKb is driven for its width, the entry leaves the kick queue and
zone E, the piece's area moves from transit to landed in bundle and order, and the piece is retired LANDED, one countable event.
Here the bay is OPEN and the piece is not short. R183, R185, R193, R214: the landing in a CLOSING bay: with transit left the bay
stays CLOSING; with none it returns to OPEN where the bundle is below its target, not SHORT and of an ACTIVE order, and else
becomes FULL, SHORT where below the target, with its label composed, one more countable event. -/
def Obligations.KickLandsPiece : Prop :=
  (∀ (b : BayNo) (y : Piece) (u : Bundle) (o : Order) (e : Entry) (s : State), Running s.part → Settled s.part →
      let p := cancel (.kick b y.tag) s.part
      let q := cancel (.expiry .E) (cancel (.sort y.tag) p)
      let u' := { u with
        transit := u.transit - y.area
        landed := u.landed + y.area
        count := if u.count < 255 then u.count + 1 else 255
        classes := countClass y.len u.classes }
      let o' := { o with transitArea := o.transitArea - y.area, landedArea := o.landedArea + y.area }
      .kick b y.tag ∈ s.part.ztr.due → HoldsPiece y p → y.state = .assigned → (p.bay b).state = .opened → (p.bay b).bundle = some u →
      p.order u.slot = some o → o.shortLength ≤ y.len → p.queue .E = [e] → e.tag = some y.tag → p.lif.coalesce = none →
      0 < p.lif.delay →
      Completes (.kickFiring b y.tag) s
        { retireSlot (slotOf y.tag) (.piece .landed)
            ((((q.setQueue .E []).setKickQueue b ((p.kickQueue b).filter fun k => k.tag != y.tag)).setBay b { p.bay b with
              bundle := some u' }).setOrder u.slot (some o')) with
          acu.kickPulse := p.acu.kickPulse.set b (some p.acu.kickWidth)
          lif.coalesce := some ⟨1, 0, 0, p.lif.delay, 8 * p.lif.delay⟩ })
  ∧ (∀ (b : BayNo) (y : Piece) (u : Bundle) (o : Order) (e : Entry) (s : State), Running s.part → Settled s.part →
      let p := cancel (.kick b y.tag) s.part
      let q := cancel (.expiry .E) (cancel (.sort y.tag) p)
      let short := y.len < o.shortLength
      let u' := { u with
        transit := u.transit - y.area
        landed := u.landed + y.area
        shortTransit := if short then u.shortTransit - y.area else u.shortTransit
        shortLanded := if short then u.shortLanded + y.area else u.shortLanded
        count := if u.count < 255 then u.count + 1 else 255
        classes := countClass y.len u.classes }
      let v := { u' with short := u.short || decide (u'.landed < o.target) }
      let landed := fun (x : Bay) (full : Nat) => Completes (.kickFiring b y.tag) s
        { retireSlot (slotOf y.tag) (.piece .landed)
            ((((q.setQueue .E []).setKickQueue b ((p.kickQueue b).filter fun k => k.tag != y.tag)).setBay b x).setOrder u.slot
              (some { o with transitArea := o.transitArea - y.area, landedArea := o.landedArea + y.area })) with
          acu.kickPulse := p.acu.kickPulse.set b (some p.acu.kickWidth)
          lif.coalesce := some ⟨1, 0, full, p.lif.delay, 8 * p.lif.delay⟩ }
      .kick b y.tag ∈ s.part.ztr.due → HoldsPiece y p → y.state = .assigned → (p.bay b).state = .closing → (p.bay b).bundle = some u →
      p.order u.slot = some o → p.queue .E = [e] → e.tag = some y.tag → p.lif.coalesce = none → 0 < p.lif.delay →
      (0 < u'.transit → landed { p.bay b with bundle := some u' } 0)
      ∧ (u'.transit = 0 → u'.landed < o.target → u.short = false → o.state = .active →
        landed { p.bay b with state := .opened, bundle := some u' } 0)
      ∧ (u'.transit = 0 → (o.target ≤ u'.landed ∨ u.short = true ∨ o.state ≠ .active) →
        landed { p.bay b with state := .full, bundle := some { v with label := some (makeLabel b v o) } } 1))

/-- The conditions of R180 on a bay with bundle u of order o: OPEN and unheld; the order ACTIVE, of the piece's species and grade, taking its class;
the target with its tolerance and, for a short piece, the short cap kept; room in the kick queue; the kick target not overdue. -/
def IsCandidate (y : Piece) (p : Part) (b : BayNo) (u : Bundle) (o : Order) : Prop :=
  (p.bay b).bundle = some u ∧ p.order u.slot = some o
    ∧ (p.bay b).state = .opened ∧ (p.bay b).supHold = false ∧ (p.bay b).staHold = false
    ∧ o.state = .active ∧ o.species = y.species ∧ o.grade = y.grade ∧ y.len ∈ o.classes
    ∧ u.landed + u.transit + y.area ≤ o.target + o.tolerance
    ∧ (y.len < o.shortLength → (u.shortLanded + u.shortTransit + y.area) * 100 ≤ o.shortCap * o.target)
    ∧ (p.kickQueue b).length < 8
    ∧ ahead .E (minus .E (y.lead.getD 0 + (p.ztr.geo.kicks.getD b.val (0, 0)).1) (p.ztr.geo.kicks.getD b.val (0, 0)).2) (p.counter .E)
      < 8388608

/-- R179, R181: the sort compare of a piece in BELT_E: a piece of grade W, or flagged UNSURE, becomes UNSORTED; one for which a bay is
chosen is assigned to it: its area enters the transit of bundle and order, its kick is armed, and the bay becomes CLOSING when the
bundle reaches the target. Here the piece is not reserved and not short, and the bay's kick queue is empty. R159, R179 to R181:
the sort compare of a piece that is reserved, or finds no bay: with no candidate it becomes UNSORTED; a reserved piece is released
first, whether it becomes UNSORTED or is assigned, to a bay of its order or of another: its area leaves the reserved area of the
one and enters the transit of the other; a short piece enters the short transit too, and its kick stands at its place in the bay's
queue. R180: the bay chosen is a candidate: of those whose bundle is of the piece's reserved order, if there is one, the fullest,
then the lowest; else of all candidates the one of the order of highest priority, then the fullest, then the lowest. None is
chosen where no bay is a candidate. -/
def Obligations.SortCompareAssignsPiece : Prop :=
  (∀ (y : Piece) (s : State), Running s.part → Settled s.part →
      let p := { s.part with ztr.due := s.part.ztr.due.filter fun e => e != .sort y.tag }
      .sort y.tag ∈ s.part.ztr.due → HoldsPiece y p → y.state = .beltE → y.reserved = none →
      ((y.unsure = true ∨ y.grade = .W) → Completes (.sortCompare y.tag) s (writePiece { y with state := .unsorted } p))
      ∧ (∀ (c : Candidate) (u : Bundle) (o : Order), y.unsure = false → y.grade ≠ .W → chooseBay y p = some c →
        (p.bay c.bay).bundle = some u → p.order u.slot = some o → o.shortLength ≤ y.len → p.kickQueue c.bay = [] →
        let k := kickTarget c.bay (y.lead.getD 0) p
        strictlyAhead .E k (p.counter .E) = true →
        Completes (.sortCompare y.tag) s
          { (((writePiece { y with state := .assigned, bay := some c.bay, serial := some u.serial } p).setKickQueue c.bay
              [⟨k, y.tag⟩]).setBay c.bay { p.bay c.bay with
                state := if o.target ≤ u.landed + (u.transit + y.area) then .closing else (p.bay c.bay).state
                bundle := some { u with transit := u.transit + y.area } }).setOrder u.slot
              (some { o with transitArea := o.transitArea + y.area }) with
            ztr.compares := p.ztr.compares ++ [⟨.kick c.bay y.tag, k⟩] }))
  ∧ (∀ (y : Piece) (s : State), Running s.part → Settled s.part →
      let p := { s.part with ztr.due := s.part.ztr.due.filter fun e => e != .sort y.tag }
      let less := fun (o : OrderNo) (r : Order) => p.setOrder o (some { r with reservedArea := r.reservedArea - y.area })
      .sort y.tag ∈ s.part.ztr.due → HoldsPiece y p → y.state = .beltE →
      (chooseBay y p = none → y.reserved = none → Completes (.sortCompare y.tag) s (writePiece { y with state := .unsorted } p))
      ∧ (∀ (o : OrderNo) (r : Order), (y.unsure = true ∨ y.grade = .W ∨ chooseBay y p = none) → y.reserved = some o → p.order o = some r →
        Completes (.sortCompare y.tag) s (writePiece { y with state := .unsorted, reserved := none } (less o r)))
      ∧ (∀ (c : Candidate) (u : Bundle) (o : OrderNo) (r q : Order) (nearer further : List KickEntry), y.unsure = false → y.grade ≠ .W →
        chooseBay y p = some c → y.reserved = some o → p.order o = some r → (p.bay c.bay).bundle = some u →
        (less o r).order u.slot = some q → p.kickQueue c.bay = nearer ++ further →
        let k := kickTarget c.bay (y.lead.getD 0) p
        let filled := u.transit + y.area
        (∀ x ∈ nearer, precedes .E k x.target = false) → (∀ x ∈ further.head?, precedes .E k x.target = true) →
        strictlyAhead .E k (p.counter .E) = true →
        Completes (.sortCompare y.tag) s
          { (((writePiece { y with state := .assigned, reserved := none, bay := some c.bay, serial := some u.serial } (less o r)).setKickQueue
              c.bay (nearer ++ ⟨k, y.tag⟩ :: further)).setBay c.bay { p.bay c.bay with
                state := if q.target ≤ u.landed + filled then .closing else (p.bay c.bay).state
                bundle := some { u with
                  transit := filled
                  shortTransit := if y.len < q.shortLength then u.shortTransit + y.area else u.shortTransit } }).setOrder u.slot
              (some { q with transitArea := q.transitArea + y.area }) with
            ztr.compares := p.ztr.compares ++ [⟨.kick c.bay y.tag, k⟩] }))
  ∧ (∀ (y : Piece) (p : Part),
      let fuller := fun (b : BayNo) (u : Bundle) (c : BayNo) (v : Bundle) =>
        v.landed + v.transit < u.landed + u.transit ∨ (v.landed + v.transit = u.landed + u.transit ∧ b ≤ c)
      (∀ c : Candidate, chooseBay y p = some c → ∃ (u : Bundle) (o : Order), IsCandidate y p c.bay u o
        ∧ ((∃ (b : BayNo) (v : Bundle) (r : Order), IsCandidate y p b v r ∧ y.reserved = some v.slot) →
          y.reserved = some u.slot ∧ ∀ (b : BayNo) (v : Bundle) (r : Order), IsCandidate y p b v r → y.reserved = some v.slot →
            fuller c.bay u b v)
        ∧ ((∀ (b : BayNo) (v : Bundle) (r : Order), IsCandidate y p b v r → y.reserved ≠ some v.slot) →
          ∀ (b : BayNo) (v : Bundle) (r : Order), IsCandidate y p b v r →
            r.priority < o.priority ∨ (r.priority = o.priority ∧ fuller c.bay u b v)))
      ∧ (chooseBay y p = none → ∀ (b : BayNo) (u : Bundle) (o : Order), ¬ IsCandidate y p b u o))

/-! Plan completion (chapters 4 and 5) and the scrubber (1.7). -/

/-- R88: the completion of a plan marked for discard leaves the strip as it is; the planner becomes IDLE, and with an empty queue it
stays so. R88, R90, R91: a completion whose plan holds no piece writes the empty plan and makes the strip REJECTING with EMPTY;
one whose plan finds too few free slots makes it REJECTING with NO_SLOTS and writes no plan. Either cancels the deadline compare,
and the planner becomes IDLE. -/
def Obligations.PlanWithoutPiecesAndDiscard : Prop :=
  (∀ (x : Strip) (j : PlanJob) (s : State), Running s.part → Settled s.part → s.part.cpl.job = some j → j.tag = x.tag →
      HoldsStrip x s.part → (j.discard = true ∨ x.state ≠ .planning) → s.part.cpl.queue = [] →
      Completes .planCompletion s { s.part with cpl.job := none })
  ∧ (∀ (x : Strip) (j : PlanJob) (s : State), Running s.part → Settled s.part →
      let p := cancel (.deadline x.tag) { s.part with cpl.job := none }
      s.part.cpl.job = some j → j.tag = x.tag → j.discard = false → HoldsStrip x p → x.state = .planning → p.cpl.queue = [] →
      (choosePlan j.snapshot = [] → Completes .planCompletion s
        (writeStrip { x with state := .rejecting, reject := some .empty, plan := some ⟨0, []⟩ } p))
      ∧ (choosePlan j.snapshot ≠ [] → p.rst.free.length < (choosePlan j.snapshot).length → Completes .planCompletion s
        (writeStrip { x with state := .rejecting, reject := some .noSlots } p)))

/-- R4, R10, R92, R113, R114, R157: a completion whose plan holds a piece writes its record, in PLANNED and bound to the strip's
context, in the slot at the free list's head, with the place's start, class, length, footprint, grade, value and area; the strip
becomes PLANNED with the plan, its deadline compare is cancelled, and the piece is reserved to the order that attribution chooses,
whose reserved area rises. That the slot taken is not read, so that an error in it leaves no trace, is the model's choice (log
entry 22). -/
def Obligations.PlanCompletionMakesPieces : Prop :=
  ∀ (x : Strip) (j : PlanJob) (pl : Place) (i : SlotNo) (rest : List SlotNo) (s : State), Running s.part → Settled s.part →
    let p := cancel (.deadline x.tag) { s.part with cpl.job := none }
    let gen := if 63 ≤ (p.slot i).gen then 1 else (p.slot i).gen + 1
    let tag := gen * 1024 + i.val
    let y : Piece := ⟨tag, x.tag, 1, x.ctx, x.species, pl.cls, pl.len, pl.foot, pl.grade, pl.value, pl.area, pl.start, none, none, none,
      none, none, false, false, .planned⟩
    let plan : StripPlan := ⟨pl.value, [⟨some tag, pl.start, pl.cls, pl.foot⟩]⟩
    let q := writeStrip { x with state := .planned, plan := some plan }
      { p.setCtx x.ctx { p.ctx x.ctx with refs := (p.ctx x.ctx).refs + 1 } with rst.free := rest }
    let put := fun z : Piece => q.setSlot i ⟨gen, .piece z, .good, ⟨gen, shadowOf (.piece z)⟩, false⟩
    s.part.cpl.job = some j → j.tag = x.tag → j.discard = false → HoldsStrip x p → x.state = .planning → p.cpl.queue = [] →
    choosePlan j.snapshot = [pl] → p.rst.free = i :: rest → i ≠ slotOf x.tag →
    ((pl.grade = .W ∨ reserveChoice y p = none) → Completes .planCompletion s (put y))
    ∧ (∀ (o : OrderNo) (r : Order), pl.grade ≠ .W → reserveChoice y p = some o → p.order o = some r →
      Completes .planCompletion s
        ((put { y with reserved := some o }).setOrder o (some { r with reservedArea := r.reservedArea + pl.area })))

/-- R15, R16, R21, R23, R24: the scrubber reads one slot, advances its pointer from 1023 to 0, and leaves no trace in a clean slot. A
single error is corrected, a shadow parity error rebuilt, each counted and captured by RST, the capture of a full record lost to
OVERRUN; a single error in a free slot is corrected without trace, and a double error there, the shadow good, is rewritten clean
without trace. -/
def Obligations.ScrubReadRepairsSlot : Prop :=
  ∀ s : State, Running s.part → Settled s.part →
    let p := { s.part with rst.scrubPtr := s.part.rst.scrubPtr + 1 }
    let i := s.part.rst.scrubPtr
    let x := p.slot i
    let capture := fun (k : CaptureKind) (q : Part) => match q.rst.capture with
      | none => { q with rst.capture := some ⟨k, i, x.gen * 1024 + i.val, .rst⟩ }
      | some _ => { q with rst.overrun := true }
    let clean := p.setSlot i { x with check := .good }
    let rebuilt := p.setSlot i ⟨x.gen, x.contents, .good, ⟨x.gen, shadowOf x.contents⟩, false⟩
    (x.check = .double → x.parityBad = false → x.shadow.body = .nothing →
      Completes .scrubRead s (p.setSlot i ⟨x.shadow.gen, .nothing, .good, ⟨x.shadow.gen, .nothing⟩, false⟩))
    ∧ (x.check = .good → x.parityBad = false → Completes .scrubRead s p)
    ∧ (x.check = .single → x.parityBad = false → x.contents = .nothing → Completes .scrubRead s clean)
    ∧ (x.check = .single → x.parityBad = false → x.contents ≠ .nothing → p.rst.corrected < 4294967295 →
      Completes .scrubRead s (capture .corrected { clean with rst.corrected := p.rst.corrected + 1 }))
    ∧ ((x.check = .good ∨ (x.check = .single ∧ x.contents = .nothing)) → x.parityBad = true → p.rst.shadowed < 4294967295 →
      Completes .scrubRead s (capture .shadow { rebuilt with rst.shadowed := p.rst.shadowed + 1 }))
    ∧ (x.check = .single → x.parityBad = true → x.contents ≠ .nothing → p.rst.corrected < 4294967295 → p.rst.shadowed < 4294967295 →
      Completes .scrubRead s (capture .shadow { rebuilt with
        rst.corrected := p.rst.corrected + 1
        rst.shadowed := p.rst.shadowed + 1 }))

/-! LINE CLEAR (R57). -/

/-- R27, R57, R73, R93, R135, R172, R191: LINCLR taken clears every block: every queue, the cut list and the actions are emptied,
every live record is retired into a clean slot with its generation kept, reserved and transit areas become 0, a plan in progress
is marked for discard and LINE FAULT is cleared; counters, eyes, coil pair, last cut position, RUN and the contexts' contents
stay. Its reply waits for the completion: the request stands at its list's head. Here every slot is clean. R27, R57: from every
state that meets the laws of the Record Store, whatever errors its slots hold and whether an automatic LINE CLEAR waits or not,
LINCLR taken leaves every block cleared: no record live, every slot on the free list, every collection empty. That a second clear
before the completion of the first is carried out as any other is the model's inference (log entry 12). R185, R191: LINCLR leaves
every bundle without transit; each bay in CLOSING returns to OPEN where its bundle is below its target, not SHORT and of an ACTIVE
order, and else becomes FULL, SHORT where below the target, with its label composed; the other bays keep their state. -/
def Obligations.LineClearEmptiesEveryBlock : Prop :=
  (∀ (number : Nat) (s : State), Running s.part → Settled s.part → Takes 0 0x19 s.part → s.part.lif.clear = none →
      (∀ i : SlotNo, CleanSlot i s.part) →
      ∃ t : State, exec (.linclr 0 number) s = .next t ∧ t.pending = s.pending
        ∧ (∀ i : SlotNo, t.part.slot i = ⟨(s.part.slot i).gen, .nothing, .good, ⟨(s.part.slot i).gen, .nothing⟩, false⟩)
        ∧ (∀ i : SlotNo, i ∈ t.part.rst.free ↔ i ∈ s.part.rst.free ∨ (s.part.slot i).contents ≠ .nothing)
        ∧ (∀ z : Zone, t.part.queue z = [] ∧ t.part.counter z = s.part.counter z ∧ (t.part.zone z).mark = (s.part.zone z).mark)
        ∧ t.part.ztr.cutList = [] ∧ t.part.ztr.itemA = .none ∧ t.part.ztr.itemB = .none ∧ t.part.ztr.fault = none
        ∧ t.part.ztr.eyeA = s.part.ztr.eyeA ∧ t.part.ztr.eyeB = s.part.ztr.eyeB ∧ t.part.ztr.eyeC = s.part.ztr.eyeC
        ∧ t.part.ztr.eyeE = s.part.ztr.eyeE ∧ t.part.ztr.eyeX = s.part.ztr.eyeX
        ∧ t.part.ztr.geo = s.part.ztr.geo ∧ t.part.ztr.geoValid = s.part.ztr.geoValid
        ∧ (∀ c : CtxNo, t.part.ctx c = { s.part.ctx c with refs := 0 })
        ∧ t.part.cpl.active = s.part.cpl.active ∧ t.part.cpl.grades = s.part.cpl.grades ∧ t.part.cpl.run = s.part.cpl.run
        ∧ t.part.cpl.queue = [] ∧ t.part.cpl.job = s.part.cpl.job.map (fun j => { j with discard := true })
        ∧ t.part.acu = { s.part.acu with saw := [], waste := [], mark := none, kicks := Vector.replicate 8 [] }
        ∧ (∀ o : OrderNo, t.part.order o = (s.part.order o).map (fun x => { x with reservedArea := 0, transitArea := 0 }))
        ∧ t.part.ort.seq = s.part.ort.seq
        ∧ (∀ b : BayNo, ∀ u ∈ (t.part.bay b).bundle, u.transit = 0 ∧ u.shortTransit = 0)
        ∧ (t.part.link 0).requests = [.request (.linclr 0 number)])
  ∧ (∀ (number : Nat) (s : State), Running s.part → Settled s.part → Takes 0 0x19 s.part → StoreLaws s.part →
      ∃ t : State, exec (.linclr 0 number) s = .next t ∧ t.pending = s.pending ∧ LineCleared t.part ∧ StoreLaws t.part
        ∧ (OrderLaws s.part → OrderLaws t.part))
  ∧ (∀ (number : Nat) (s : State), Running s.part → Settled s.part → Takes 0 0x19 s.part →
      ∃ t : State, exec (.linclr 0 number) s = .next t ∧ t.pending = s.pending ∧ ∀ b : BayNo,
        let x := s.part.bay b
        let still := fun u : Bundle => { u with transit := 0, shortTransit := 0 }
        (x.state ≠ .closing → t.part.bay b = { x with bundle := x.bundle.map still })
        ∧ ∀ (u : Bundle) (r : Order), x.state = .closing → x.bundle = some u → s.part.order u.slot = some r →
          let v := { still u with short := u.short || decide (u.landed < r.target) }
          (u.landed < r.target → u.short = false → r.state = .active → t.part.bay b = { x with state := .opened, bundle := some (still u) })
          ∧ ((r.target ≤ u.landed ∨ u.short = true ∨ r.state ≠ .active) →
            t.part.bay b = { x with state := .full, bundle := some { v with label := some (makeLabel b v r) } }))

/-- R5, R17, R18, R24, R26: a read that finds a double error in the main contents of a live strip, its shadow good, condemns it: a
DAMAGED capture with the shadow's tag, the damaged counter, ERRNTC to the supervisor at once, and the strip, here one in
ENTERING_B or SCANNING alone in zone B, leaves its queue with its deadline compare and is retired DAMAGED into a clean slot. That
ERRNTC's kind byte is 1 for DAMAGED, the place in R24's list of four, is the model's choice (log entry 7). R17, R18: a damaged
strip condemned in each further state, the scrubber its reader: `noteDamage` is the capture, counter and ERRNTC of the clause
before. In ENTERING_A, IN_A and REJECTING it leaves its zone's queue with its deadline compare, in MAPPED the planner queue too,
as in PLANNING. In PLANNED each of its pieces, here one reserved to an order, is retired CONDEMNED, its reservation released. In
CUTTING its saw action goes, its piece in BELT_C is condemned and leaves zone C, one waste interval covers the strip from the
shadow's lead position over its length, and it leaves the cut list. R17, R19, R20: a damaged piece condemned by its shadow state,
the scrubber its reader. In BELT_C, LUG, BELT_E and UNSORTED its order's reserved area falls by its area if it is reserved, its
entry leaves its zone's queue with the entry's own compares, and it is retired DAMAGED. In ASSIGNED its kick is cancelled and its
area leaves the transit of bundle and order. In PLANNED its place in the parent's plan becomes a void place, and the plan's other
fields stand. R22, R27: a read that finds a double error with a shadow parity error takes a DOUBLE capture with the shadow's tag
and clears the line as an automatic LINE CLEAR: zone queues, cut list, saw queue, waste intervals and planner queue are empty.
R22, R27, R57: from every state that meets the laws of the Record Store, such a read leaves every block cleared, kick queues,
orders and bundles among them, and every slot clean in both places: that a free slot is rewritten too, unread, is the model's
inference (log entry 12). -/
def Obligations.DoubleErrorsCondemnOrClear : Prop :=
  (∀ (h : StripShadow) (e : Entry) (lead : Nat) (s : State), Running s.part → Settled s.part →
      let i := s.part.rst.scrubPtr
      let gen := (s.part.slot i).shadow.gen
      let tag := gen * 1024 + i.val
      let p := cancel (.deadline tag) (cancel (.expiry .B) (s.part.setQueue .B []))
      (s.part.slot i).check = .double → (s.part.slot i).parityBad = false → (s.part.slot i).shadow.body = .strip h →
      (h.state = .enteringB ∨ h.state = .scanning) → h.loc = some (.B, lead) → s.part.queue .B = [e] → e.tag = some tag →
      p.rst.capture = none → p.rst.damaged < 4294967295 → p.rst.stripRetired[5] < 4294967295 →
      (p.link 0).state = .up → (p.link 0).transmit.length < 56 →
      Completes .scrubRead s
        { (p.setSlot i ⟨gen, .nothing, .good, ⟨gen, .nothing⟩, false⟩).setCtx h.ctx { p.ctx h.ctx with
            refs := (p.ctx h.ctx).refs - 1 } with
          rst.free := p.rst.free ++ [i]
          rst.damaged := p.rst.damaged + 1
          rst.stripRetired := p.rst.stripRetired.set 5 (p.rst.stripRetired[5] + 1)
          rst.capture := some ⟨.damaged, i, tag, .rst⟩
          rst.scrubPtr := i + 1
          ztr.itemA := if p.ztr.itemA = .tag tag then .none else p.ztr.itemA
          ztr.itemB := if p.ztr.itemB = .tag tag then .none else p.ztr.itemB
          lif.link := p.lif.link.set 0 { p.link 0 with
            transmit := (p.link 0).transmit ++ [⟨.notice, 0x86, 0, [.u8 1, .u16 i.val, .u16 tag, .u8 0]⟩] } })
  ∧ (∀ (h : StripShadow) (e : Entry) (lead : Nat) (s : State), Running s.part → Settled s.part →
      let i := s.part.rst.scrubPtr
      let tag := tagOf (s.part.slot i).shadow.gen i
      let p := noteDamage .damaged i .rst { s.part with rst.scrubPtr := i + 1 }
      let retired := fun q : Part => Completes .scrubRead s (retireSlot i (.strip .damaged) q)
      let off := cancel (.expiry .B) (p.setQueue .B [])
      let less := fun (y : Piece) (q : Part) => match y.reserved with
        | none => q
        | some o => q.setOrder o ((q.order o).map fun r => { r with reservedArea := r.reservedArea - y.area })
      (s.part.slot i).check = .double → (s.part.slot i).parityBad = false → (s.part.slot i).shadow.body = .strip h →
      (∀ z : Zone, (h.state, z) ∈ [(StripState.enteringA, Zone.A), (.inA, .A), (.rejecting, .A), (.rejecting, .B)] → h.loc = some (z, lead) →
        s.part.queue z = [e] → e.tag = some tag → retired (cancel (.deadline tag) (cancel (.expiry z) (p.setQueue z []))))
      ∧ (h.loc = some (.B, lead) → s.part.queue .B = [e] → e.tag = some tag →
        (h.state = .mapped → retired (cancel (.deadline tag) (leavePlanner tag off)))
        ∧ (h.state = .planning → retired (cancel (.deadline tag) off))
        ∧ (∀ y : Piece, h.state = .planned → HoldsPiece y s.part → y.state = .planned → slotOf y.tag ≠ i →
          slotsWhere (isChildOf tag) p = [slotOf y.tag] →
          retired (retireSlot (slotOf y.tag) (.piece .condemned) (less y off))))
      ∧ (∀ (y : Piece) (len target : Nat), h.state = .cutting → h.loc = some (.C, lead) → h.length = some len →
        s.part.ztr.cutList = [⟨tag, lead⟩] → s.part.acu.saw = [⟨target, tag⟩] → HoldsPiece y s.part → y.state = .beltC →
        slotOf y.tag ≠ i → slotsWhere (isChildOf tag) p = [slotOf y.tag] → s.part.queue .C = [e] → e.tag = some y.tag →
        s.part.acu.waste = [] →
        let o := minus .C (lead + p.ztr.geo.dFlap) p.ztr.geo.pFlap
        let t := minus .C (lead + p.ztr.geo.dFlap + len) p.ztr.geo.pFlap
        let q := cancel (.expiry .C) (cancel (.saw target) ((p.setQueue .C [])))
        strictlyAhead .C o (p.counter .C) = true → strictlyAhead .C t (p.counter .C) = true →
        retired (retireSlot (slotOf y.tag) (.piece .condemned) (less y { q with
          ztr.cutList := []
          ztr.compares := q.ztr.compares ++ [⟨.wasteOpen o, o⟩, ⟨.wasteShut t, t⟩]
          acu.saw := []
          acu.waste := [⟨o, some t, .waiting⟩] }))))
  ∧ (∀ (h : PieceShadow) (e : Entry) (lead : Nat) (s : State), Running s.part → Settled s.part →
      let i := s.part.rst.scrubPtr
      let tag := tagOf (s.part.slot i).shadow.gen i
      let p := noteDamage .damaged i .rst { s.part with rst.scrubPtr := i + 1 }
      let retired := fun q : Part => Completes .scrubRead s (retireSlot i (.piece .damaged) q)
      let off := fun z : Zone => cancel (.expiry z) (entryGone z e (p.setQueue z []))
      let less := fun q : Part => match h.reserved with
        | none => q
        | some o => q.setOrder o ((q.order o).map fun r => { r with reservedArea := r.reservedArea - h.area })
      (s.part.slot i).check = .double → (s.part.slot i).parityBad = false → (s.part.slot i).shadow.body = .piece h →
      (∀ z : Zone, (h.state, z) ∈ [(PieceState.beltC, Zone.C), (.lug, .D), (.beltE, .E), (.unsorted, .E)] → h.loc = some (z, lead) →
        s.part.queue z = [e] → e.tag = some tag → retired (less (off z)))
      ∧ (∀ (b : BayNo) (u : Bundle) (r : Order), h.state = .assigned → h.loc = some (.E, lead) → h.bay = some b →
        s.part.queue .E = [e] → e.tag = some tag → (p.bay b).state = .opened → (p.bay b).bundle = some u → p.order u.slot = some r →
        r.shortLength ≤ (h.foot - 2 * (profileOf h.ctx p).trim) / 10 →
        retired (((cancel (.kick b tag) ((off .E).setKickQueue b ((p.kickQueue b).filter fun k => k.tag != tag))).setBay b { p.bay b with
          bundle := some { u with transit := u.transit - h.area } }).setOrder u.slot (some { r with
            transitArea := r.transitArea - h.area })))
      ∧ (∀ (x : Strip) (pl : PlanEntry) (value : Nat), h.state = .planned → h.loc = none → h.parent = x.tag → HoldsStrip x s.part →
        slotOf x.tag ≠ i → x.plan = some ⟨value, [pl]⟩ → pl.tag = some tag →
        retired (writeStrip { x with plan := some ⟨value, [{ pl with tag := none }]⟩ } (less p))))
  ∧ (∀ s : State, Running s.part → Settled s.part → (s.part.slot s.part.rst.scrubPtr).check = .double →
      (s.part.slot s.part.rst.scrubPtr).parityBad = true → s.part.rst.capture = none →
      ∃ t : State, exec .scrubRead s = .next t ∧ t.pending = s.pending ∧ (∀ z : Zone, t.part.queue z = [])
        ∧ t.part.rst.capture = some ⟨.double, s.part.rst.scrubPtr,
          (s.part.slot s.part.rst.scrubPtr).shadow.gen * 1024 + s.part.rst.scrubPtr.val, .rst⟩
        ∧ t.part.ztr.cutList = [] ∧ t.part.acu.saw = [] ∧ t.part.acu.waste = [] ∧ t.part.cpl.queue = []
        ∧ (∃ c, t.part.lif.clear = some c ∧ c.auto = true))
  ∧ (∀ s : State, Running s.part → Settled s.part → (s.part.slot s.part.rst.scrubPtr).check = .double →
      (s.part.slot s.part.rst.scrubPtr).parityBad = true → StoreLaws s.part →
      ∃ t : State, exec .scrubRead s = .next t ∧ t.pending = s.pending ∧ LineCleared t.part ∧ (∀ i : SlotNo, CleanSlot i t.part)
        ∧ t.part.rst.scrubPtr = s.part.rst.scrubPtr + 1 ∧ (∃ c, t.part.lif.clear = some c ∧ c.auto = true))

/-- R57, R71, R205, R213: when a requested LINE CLEAR has been carried out in every block, PERMIT is re-evaluated, the LINCLR at the
head of link 0's list leaves it, and its reply DONE is composed; where PERMIT and LINE FAULT are as before the clear and no BDLRDY
is owed, nothing else. R22, R56: when an automatic LINE CLEAR has been carried out in every block, LINE FAULT is set with
DOUBLE_DAMAGE, and PERMIT is off. -/
def Obligations.LineClearCompletes : Prop :=
  (∀ (number : Nat) (f : Option FaultCause) (b : Bool) (s : State), Running s.part → Settled s.part →
      s.part.lif.clear = some ⟨false, some number, b, f, []⟩ → (s.part.link 0).requests = [.request (.linclr 0 number)] →
      ∃ t : State, exec .lineClearComplete s = .next t ∧ t.pending = s.pending ∧ t.part.lif.clear = none
        ∧ (t.part.link 0).requests = [] ∧ Answered 0 0x19 number ⟨.done, []⟩ t.part
        ∧ After { s.part.setLink 0 { s.part.link 0 with requests := [] } with lif.clear := none } t.part
        ∧ (t.part.cpl.permit = true ↔ PermitConditions t.part)
        ∧ (t.part.cpl.permit = b → t.part.ztr.fault = f →
          (t.part.link 0).transmit = (s.part.link 0).transmit ++ [⟨.reply, 0x19, number, [.u8 0]⟩]))
  ∧ (∀ (c : Clear) (s : State), Running s.part → Settled s.part → s.part.lif.clear = some c → c.auto = true → s.part.ztr.fault = none →
      ∃ t : State, exec .lineClearComplete s = .next t ∧ t.pending = s.pending ∧ t.part.ztr.fault = some .doubleDamage
        ∧ t.part.cpl.permit = false ∧ t.part.lif.clear = none)

/-! Links (chapter 11). -/

/-- R207, R209, R211, Table 11-2: a link in DOWN that gains signal becomes UP, the supervisor's, or WAITING, a station's; a HOLDING
link stays so with its timer running. Each sends ANNC, with role and serial for the HOLDING one. One that has signal already stays
as it is. The presence bytes of role and serial in ANNC are the model's choice (log entry 7). R206, R209, R211: an ENROLLED link
that loses signal becomes HOLDING with its hold timer started at the hold time in force, keeping role, serial and tool list; the
supervisor's link becomes DOWN; a WAITING one too. The lists are emptied, and nothing else of the part changes but PERMIT's
re-evaluation. R70, R72, R213: an ENROLLED link's loss that turns PERMIT off, as that of MOULDER, SCANNER or ENDMATCHER does,
sends the supervisor one LINSTA with PERMIT off, the report and LINE FAULT (its fields: log entry 7). R206, R210, R211: an
INCOMPATIBLE link that loses signal becomes DOWN, the supervisor's, or stays so, a station's, which only a link reset leaves; one
that gains signal stays as it is, and nothing is sent. -/
def Obligations.SignalMovesLinkState : Prop :=
  (∀ (l : LinkNo) (s : State), Running s.part → Settled s.part →
      let x := s.part.link l
      let annc := fun fs : List Item => (⟨.notice, 0x80, 0, [.u32 0x464C0014, .u8 l.val] ++ fs ++ [.u16 s.part.lif.hold]⟩ : Frame)
      (x.signal = false → x.state = .down → x.transmit.length < 56 → Completes (.linkSignalUp l) s (s.part.setLink l { x with
        signal := true
        state := if l = 0 then .up else .waiting
        transmit := x.transmit ++ [annc [.u8 1, .u8 0, .u8 0]] }))
      ∧ (∀ r : Role, x.signal = false → x.state = .holding → x.role = some r → x.transmit.length < 56 →
        Completes (.linkSignalUp l) s (s.part.setLink l { x with
          signal := true
          transmit := x.transmit ++ [annc [.u8 3, .u8 1, .u8 r.ctorIdx, .u8 1, .u32 x.serial]] }))
      ∧ (x.signal = true → Completes (.linkSignalUp l) s s.part))
  ∧ (∀ (l : LinkNo) (s : State), Running s.part → Settled s.part →
      let x := s.part.link l
      let y := { x with signal := false, requests := [], transmit := [] }
      x.signal = true → x.rx = [] →
      ((x.state = .enrolled ∨ x.state = .waiting ∨ x.state = .up) → LeavesFrames (.linkSignalLoss l) s l [])
      ∧ (l ≠ 0 → x.state = .enrolled → 0 < s.part.lif.hold →
        Completes (.linkSignalLoss l) s (s.part.setLink l { y with state := .holding, holdTimer := some s.part.lif.hold }))
      ∧ (l ≠ 0 → x.state = .waiting → Completes (.linkSignalLoss l) s (s.part.setLink l { y with state := .down }))
      ∧ (l = 0 → x.state = .up → s.part.lif.clear = none → Completes (.linkSignalLoss l) s (s.part.setLink l { y with state := .down })))
  ∧ (∀ (l : LinkNo) (s : State), Running s.part → Settled s.part →
      let x := s.part.link l
      let y := { x with signal := false, requests := [], transmit := [] }
      let e := s.part.setLink l { y with state := .holding, holdTimer := some s.part.lif.hold }
      let fault : List Item := match s.part.ztr.fault with
        | none => [.u8 0, .u8 0, .u8 0]
        | some (.overflow z) => [.u8 1, .u8 1, .u8 0, .u8 1, .u8 z.ctorIdx]
        | some .doubleDamage => [.u8 1, .u8 1, .u8 1, .u8 0]
      x.rx = [] →
      (l ≠ 0 → x.signal = true → x.state = .enrolled → 0 < s.part.lif.hold → s.part.cpl.permit = true → permitNow e = false →
        (s.part.link 0).state = .up → (s.part.link 0).transmit.length < 56 → (s.part.link 0).requests = [] →
        ∃ t : State, exec (.linkSignalLoss l) s = .next t ∧ (t.part.link 0).transmit = (s.part.link 0).transmit
          ++ [⟨.notice, 0x85, 0, .u8 0 :: .u8 (permitReport e).length :: (permitReport e).map (fun c => .u8 c.ctorIdx) ++ fault⟩])
      ∧ (x.state = .incompatible → x.signal = true → (l = 0 → s.part.lif.clear = none) →
        Completes (.linkSignalLoss l) s (s.part.setLink l { y with state := if l = 0 then .down else .incompatible })
          ∧ LeavesFrames (.linkSignalLoss l) s l [])
      ∧ (x.state = .incompatible → x.signal = false →
        Completes (.linkSignalUp l) s (s.part.setLink l { x with signal := true })
          ∧ (x.requests = [] → LeavesFrames (.linkSignalUp l) s l x.transmit)))

/-- R208: an ENROL that passes its checks makes the link ENROLLED with role, serial and tool list, its hold timer stopped: from
WAITING with the role held by no link, or from ENROLLED or HOLDING with the same role and serial. The reply DONE carries link
number, role, and runnability and PERMIT as the enrolment leaves them. From WAITING with the role held, the answer is DUPLICATE
with that link and its state. -/
def Obligations.EnrolTakesRole : Prop :=
  ∀ (l : LinkNo) (number serial : Nat) (r : Role) (tools : List Nat) (s : State), Running s.part → Settled s.part →
    Takes l 0x01 s.part →
    let x := s.part.link l
    let e := s.part.setLink l { x with state := .enrolled, role := some r, serial := serial, tools := tools, holdTimer := none }
    let reply : Reply := ⟨.done, [.u8 l.val, .u8 r.ctorIdx, .u8 (if runnableCtx e.cpl.active e then 1 else 0),
      .u8 (if permitNow e then 1 else 0)]⟩
    serial ≠ 0 → tools.length ≤ 8 → 0 ∉ tools → tools.Nodup → ((r = .moulder ∨ r = .endmatcher) → tools ≠ []) →
    (x.state = .waiting → roleLink r s.part = none → Replies (.enrol l number r.ctorIdx serial tools) l 0x01 number s reply e)
    ∧ (x.state ≠ .waiting → x.role = some r → x.serial = serial →
      Replies (.enrol l number r.ctorIdx serial tools) l 0x01 number s reply e)
    ∧ (∀ k : LinkNo, x.state = .waiting → roleLink r s.part = some k →
      Replies (.enrol l number r.ctorIdx serial tools) l 0x01 number s
        ⟨.duplicate, [.u8 k.val, linkStateItem k (s.part.link k).state]⟩ s.part)

/-- R215, Table 11-6: NTCSET takes each setting as the nearest value of its range, puts the settings in force and answers with them; a
running timer keeps its expiry. -/
def Obligations.NtcsetClampsSettings : Prop :=
  ∀ (number : Nat) (n : Settings) (s : State), Running s.part → Settled s.part → Takes 0 0x50 s.part →
    let nearest := fun lo hi v : Nat => if v < lo then lo else if hi < v then hi else v
    let m : Settings := ⟨nearest 1 100 n.scrub, nearest 0 250 n.delay, nearest 0 10000 n.hold, nearest 10 200 n.saw, nearest 10 200 n.flap,
      nearest 0 50 n.dead, nearest 10 200 n.kick⟩
    Replies (.ntcset 0 number n) 0 0x50 number s
      ⟨.done, [.u8 m.scrub, .u8 m.delay, .u16 m.hold, .u8 m.saw, .u8 m.flap, .u8 m.dead, .u8 m.kick]⟩
      { s.part with
        rst.scrubInterval := m.scrub
        lif.delay := m.delay
        lif.hold := m.hold
        acu.sawWidth := m.saw
        acu.flapWidth := m.flap
        acu.deadTime := m.dead
        acu.kickWidth := m.kick }

/-- R192, R209, R210: at the expiry of a running hold timer the link is reset: role, serial and tool list vacated, lists emptied,
DOWN, or with signal present WAITING with ANNC sent; a vacated STACKER clears every STACKER hold flag. Here no IDLE bay is freed
by it. ANNC's absent role and serial stand as two presence bytes, the model's choice (log entry 7). R210: LINKRST of a station
link resets it whatever its state, and answers with the state it is left in: DOWN, or with signal present WAITING, ANNC sent. A
link number outside 1 to 6 is answered RANGE. Here the link does not hold the STACKER role. R204, R210, R211: a NOTICE received on
a link that hears raises the frame error counter and makes the link INCOMPATIBLE: role, serial and tool list vacated, hold timer
stopped, lists emptied, and nothing sent; here the role is not STACKER. A REPLY, or a kind outside 1 to 3, is discarded and
counted. On an INCOMPATIBLE link every frame received is discarded, and changes nothing. -/
def Obligations.LinkResetVacatesRole : Prop :=
  (∀ (l : LinkNo) (n : Nat) (s : State), Running s.part → Settled s.part →
      let x := s.part.link l
      let y : LinkRec := { x with state := .down, role := none, serial := 0, tools := [], holdTimer := none, requests := [], transmit := [] }
      let p := if x.role = some .stacker then { s.part with bas := s.part.bas.map fun b => { b with staHold := false } } else s.part
      l ≠ 0 → x.holdTimer = some n → (x.role = some .stacker → ∀ b : BayNo, (s.part.bay b).state ≠ .idle) →
      let annc : List Frame := [⟨.notice, 0x80, 0, [.u32 0x464C0014, .u8 l.val, .u8 1, .u8 0, .u8 0, .u16 s.part.lif.hold]⟩]
      (x.signal = false → Completes (.holdTimerExpiry l) s (p.setLink l y) ∧ LeavesFrames (.holdTimerExpiry l) s l [])
      ∧ (x.signal = true → Completes (.holdTimerExpiry l) s (p.setLink l { y with
          state := .waiting
          transmit := annc })
        ∧ LeavesFrames (.holdTimerExpiry l) s l annc))
  ∧ (∀ (number target : Nat) (s : State), Running s.part → Settled s.part → Takes 0 0x52 s.part →
      let l : LinkNo := Fin.ofNat 7 target
      let x := s.part.link l
      let y : LinkRec := { x with state := .down, role := none, serial := 0, tools := [], holdTimer := none, requests := [], transmit := [] }
      ((target = 0 ∨ 6 < target) → Replies (.linkrst 0 number target) 0 0x52 number s ⟨.range, []⟩ s.part)
      ∧ (1 ≤ target → target ≤ 6 → x.role ≠ some .stacker → x.signal = false →
        Replies (.linkrst 0 number target) 0 0x52 number s ⟨.done, [.u8 0]⟩ (s.part.setLink l y)
          ∧ LeavesFrames (.linkrst 0 number target) s l [])
      ∧ (1 ≤ target → target ≤ 6 → x.role ≠ some .stacker → x.signal = true →
        let annc : List Frame := [⟨.notice, 0x80, 0, [.u32 0x464C0014, .u8 target, .u8 1, .u8 0, .u8 0, .u16 s.part.lif.hold]⟩]
        Replies (.linkrst 0 number target) 0 0x52 number s ⟨.done, [.u8 1]⟩ (s.part.setLink l { y with
            state := .waiting
            transmit := annc })
          ∧ LeavesFrames (.linkrst 0 number target) s l annc))
  ∧ (∀ (l : LinkNo) (kind code number : Nat) (payload : List Byte) (s : State), Running s.part → Settled s.part → kind < 256 → code < 256 →
      number < 256 → payload.length < 256 →
      let x := s.part.link l
      let error := { x with frameErrors := x.frameErrors + 1 }
      let received := Completes (.frameReceived l (frameBytes kind code number payload)) s
      let leaves := LeavesFrames (.frameReceived l (frameBytes kind code number payload)) s l
      x.rx = [] → x.frameErrors < 4294967295 →
      (hears l s.part = true → kind = 3 → x.role ≠ some .stacker → (l = 0 → s.part.lif.clear = none) →
        received (s.part.setLink l { error with
          state := .incompatible, role := none, serial := 0, tools := [], holdTimer := none, requests := [], transmit := [] })
        ∧ leaves [])
      ∧ (hears l s.part = true → kind ≠ 1 → kind ≠ 3 → received (s.part.setLink l error))
      ∧ (x.signal = true → x.state = .incompatible → received s.part ∧ (x.requests = [] → leaves x.transmit)))

/-! Requests on records and on the tracker (1.7, 1.9, 2.9, 2.11). -/

/-- R29, R30: RECRET takes the record off the line and retires it REMOVED: here a strip in MAPPED alone in zone B, which also leaves
the planner queue with its deadline compare, and an UNSORTED piece alone in zone E. R20, R29, R30: RECRET in the further states. A
strip in ENTERING_A, IN_A, ENTERING_B, SCANNING, PLANNING or REJECTING leaves its zone's queue, from ENTERING_B to PLANNING with
its deadline compare; a plan in progress stands. Each PLANNED piece of a PLANNED strip, here one, is released and retired REMOVED
before it. Of a CUTTING strip the saw action is cancelled, its piece in BELT_C is released, leaves zone C and is retired REMOVED,
and it leaves the cut list. A piece in BELT_C, LUG or BELT_E is released if it is reserved and its entry leaves its queue with the
entry's own compares; one in ASSIGNED loses its kick, and its area leaves the transit of bundle and order; one in PLANNED leaves a
void place in its parent's plan. Each is retired REMOVED and answered DONE. -/
def Obligations.RecretRemovesRecord : Prop :=
  (∀ (number : Nat) (e : Entry) (s : State), Running s.part → Settled s.part → Takes 0 0x11 s.part →
      (∀ x : Strip, HoldsStrip x s.part → x.state = .mapped → s.part.queue .A = [] → s.part.queue .B = [e] → e.tag = some x.tag →
        s.part.ztr.cutList = [] →
        Replies (.recret 0 number x.tag) 0 0x11 number s ⟨.done, []⟩ (retireSlot (slotOf x.tag) (.strip .removed)
          (cancel (.expiry .B) ((cancel (.deadline x.tag) (leavePlanner x.tag s.part)).setQueue .B []))))
      ∧ (∀ y : Piece, HoldsPiece y s.part → y.state = .unsorted → y.reserved = none → s.part.queue .E = [e] → e.tag = some y.tag →
        Replies (.recret 0 number y.tag) 0 0x11 number s ⟨.done, []⟩ (retireSlot (slotOf y.tag) (.piece .removed)
          (cancel (.expiry .E) (cancel (.sort y.tag) (s.part.setQueue .E []))))))
  ∧ (∀ (number : Nat) (e : Entry) (s : State), Running s.part → Settled s.part → Takes 0 0x11 s.part →
      let p := s.part
      let less := fun (y : Piece) (q : Part) => match y.reserved with
        | none => q
        | some o => q.setOrder o ((q.order o).map fun r => { r with reservedArea := r.reservedArea - y.area })
      let removed := fun (tag : Nat) (q : Part) => Replies (.recret 0 number tag) 0 0x11 number s ⟨.done, []⟩ q
      (∀ (x : Strip) (z : Zone), HoldsStrip x p → (x.state, z) ∈ [(StripState.enteringA, Zone.A), (.inA, .A), (.rejecting, .A),
          (.enteringB, .B), (.scanning, .B), (.planning, .B), (.rejecting, .B)] →
        p.queue z = [e] → e.tag = some x.tag → (z = .A → p.queue .B = []) → (z = .B → p.queue .A = []) → p.ztr.cutList = [] →
        let q := if x.state = .enteringB ∨ x.state = .scanning ∨ x.state = .planning then cancel (.deadline x.tag) p else p
        removed x.tag (retireSlot (slotOf x.tag) (.strip .removed) (cancel (.expiry z) (q.setQueue z []))))
      ∧ (∀ (x : Strip) (y : Piece) (pl : PlanEntry) (value : Nat), HoldsStrip x p → HoldsPiece y p → slotOf y.tag ≠ slotOf x.tag →
        x.plan = some ⟨value, [pl]⟩ → pl.tag = some y.tag → p.queue .A = [] →
        (x.state = .planned → y.state = .planned → p.queue .B = [e] → e.tag = some x.tag → p.ztr.cutList = [] →
          removed x.tag (retireSlot (slotOf x.tag) (.strip .removed) (cancel (.expiry .B)
            ((retireSlot (slotOf y.tag) (.piece .removed) (less y p)).setQueue .B []))))
        ∧ (∀ target lead : Nat, x.state = .cutting → y.state = .beltC → p.queue .B = [] → p.queue .C = [e] → e.tag = some y.tag →
          p.ztr.cutList = [⟨x.tag, lead⟩] → p.acu.saw = [⟨target, x.tag⟩] →
          let q := cancel (.expiry .C) (cancel (.saw target) (p.setQueue .C []))
          removed x.tag (retireSlot (slotOf x.tag) (.strip .removed)
            (retireSlot (slotOf y.tag) (.piece .removed) (less y { q with
              ztr.cutList := []
              acu.saw := [] })))))
      ∧ (∀ y : Piece, HoldsPiece y p →
        let off := fun z : Zone => cancel (.expiry z) (entryGone z e (p.setQueue z []))
        let retired := fun q : Part => removed y.tag (retireSlot (slotOf y.tag) (.piece .removed) q)
        (∀ z : Zone, (y.state, z) ∈ [(PieceState.beltC, Zone.C), (.lug, .D), (.beltE, .E)] → p.queue z = [e] → e.tag = some y.tag →
          retired (less y (off z)))
        ∧ (∀ (b : BayNo) (u : Bundle) (r : Order), y.state = .assigned → y.bay = some b → p.queue .E = [e] → e.tag = some y.tag →
          (p.bay b).state = .opened → (p.bay b).bundle = some u → p.order u.slot = some r → r.shortLength ≤ y.len →
          retired (((cancel (.kick b y.tag) ((off .E).setKickQueue b ((p.kickQueue b).filter fun k => k.tag != y.tag))).setBay b { p.bay b
            with bundle := some { u with transit := u.transit - y.area } }).setOrder u.slot (some { r with
              transitArea := r.transitArea - y.area })))
        ∧ (∀ (x : Strip) (pl : PlanEntry) (value : Nat), y.state = .planned → y.parent = x.tag → HoldsStrip x p →
          slotOf y.tag ≠ slotOf x.tag → x.plan = some ⟨value, [pl]⟩ → pl.tag = some y.tag →
          retired (writeStrip { x with plan := some ⟨value, [{ pl with tag := none }]⟩ } (less y p)))))

/-! Requests of the Cut Planner (chapters 3 and 4) and of the end-matcher (7.5). -/

/-- R55: GEOLD is taken only while PERMIT is off, every zone queue, the cut list and the waste list are empty and no last cut position
is held; with every field in range and the cross-checks met it replaces the record and makes the geometry valid. Refused, it
changes nothing. R65, R66: GRDLD replaces the species' grade table whole while no live strip of the species is in SCANNING, MAPPED
or PLANNING; with one it is INUSE and changes nothing. That the strips are found from the shadow entries, without a read of any
slot, is the model's inference (log entry 15). -/
def Obligations.GeometryAndGradeTablesLoad : Prop :=
  (∀ (number : Nat) (g : Geometry) (s : State), Running s.part → Settled s.part → Takes 0 0x18 s.part →
      let p := s.part
      let empty := p.cpl.permit = false ∧ (∀ z : Zone, p.queue z = []) ∧ p.ztr.cutList = [] ∧ p.acu.waste = [] ∧ p.acu.lastCut = none
      let fits := Geometry.inRange g && Geometry.consistent g
      (empty → fits = true → Replies (.geold 0 number g) 0 0x18 number s ⟨.done, []⟩ { p with ztr.geo := g, ztr.geoValid := true })
      ∧ (empty → fits = false → Replies (.geold 0 number g) 0 0x18 number s ⟨.range, []⟩ p)
      ∧ (¬ empty → Replies (.geold 0 number g) 0 0x18 number s ⟨.wrongState, []⟩ p))
  ∧ (∀ (number species : Nat) (limits : List GradeLimit) (s : State), Running s.part → Settled s.part → Takes 0 0x22 s.part →
      1 ≤ species → species ≤ 8 → limits.length = 48 → (∀ x ∈ limits, x.count ≤ 15 ∧ x.size ≤ 255) →
      (slotsWhere (usesGrades species s.part) s.part = [] → Replies (.grdld 0 number species limits) 0 0x22 number s ⟨.done, []⟩
        { s.part with cpl.grades := s.part.cpl.grades.set (Fin.ofNat 8 (species - 1)) limits })
      ∧ (slotsWhere (usesGrades species s.part) s.part ≠ [] →
        Replies (.grdld 0 number species limits) 0 0x22 number s ⟨.inUse, []⟩ s.part))

/-- R62, R64: CTXLD of a slot that no record is bound to replaces its profile whole; with a record bound it is INUSE with the count,
and nothing changes. CTXSEL of a LOADED slot makes it the active one; of an EMPTY slot it is WRONGSTATE. Replies show runnability,
and the count. R69, R72: LINGO sets RUN and LINSTP clears it, whatever it stood at; the reply shows PERMIT and the permit report
as the request leaves them. R72, R213: a LINGO or LINSTP that changes PERMIT raises one LINSTA, which follows its reply and
carries PERMIT, the report and LINE FAULT; one that leaves PERMIT as it stood raises none. LINE FAULT's fields are log entry 7's. -/
def Obligations.ContextAndRunRequests : Prop :=
  (∀ (number slot : Nat) (f : Profile) (s : State), Running s.part → Settled s.part → slot ≤ 3 →
      let c : CtxNo := Fin.ofNat 4 slot
      let p := s.part
      let e := p.setCtx c { p.ctx c with profile := some f }
      (Takes 0 0x20 p → (p.ctx c).refs = 0 → Profile.inRange f = true → Replies (.ctxld 0 number slot f) 0 0x20 number s
        ⟨.done, [.u8 (if runnableCtx c e then 1 else 0)]⟩ e)
      ∧ (Takes 0 0x20 p → (p.ctx c).refs = 0 → Profile.inRange f = false → Replies (.ctxld 0 number slot f) 0 0x20 number s ⟨.range, []⟩ p)
      ∧ (Takes 0 0x20 p → 0 < (p.ctx c).refs → Replies (.ctxld 0 number slot f) 0 0x20 number s ⟨.inUse, [.u16 (p.ctx c).refs]⟩ p)
      ∧ (Takes 0 0x21 p → (p.ctx c).profile ≠ none → Replies (.ctxsel 0 number slot) 0 0x21 number s
        ⟨.done, [.u16 (p.ctx c).refs, .u8 (if runnableCtx c p then 1 else 0)]⟩ { p with cpl.active := c })
      ∧ (Takes 0 0x21 p → (p.ctx c).profile = none → Replies (.ctxsel 0 number slot) 0 0x21 number s ⟨.wrongState, []⟩ p))
  ∧ (∀ (number : Nat) (s : State), Running s.part → Settled s.part →
      let e := fun b : Bool => { s.part with cpl.run := b }
      let items := fun b : Bool => .u8 (if permitNow (e b) then 1 else 0) :: .u8 (permitReport (e b)).length
        :: (permitReport (e b)).map fun c => .u8 c.ctorIdx
      (Takes 0 0x23 s.part → Replies (.lingo 0 number) 0 0x23 number s ⟨.done, items true⟩ (e true))
      ∧ (Takes 0 0x24 s.part → Replies (.linstp 0 number) 0 0x24 number s ⟨.done, items false⟩ (e false)))
  ∧ (∀ (number : Nat) (s : State), Running s.part → Settled s.part →
      let old := (s.part.link 0).transmit
      let e := fun b : Bool => { s.part with cpl.run := b }
      let items := fun b : Bool => Item.u8 (if permitNow (e b) then 1 else 0) :: .u8 (permitReport (e b)).length
        :: (permitReport (e b)).map fun c => .u8 c.ctorIdx
      let fault : List Item := match s.part.ztr.fault with
        | none => [.u8 0, .u8 0, .u8 0]
        | some (.overflow z) => [.u8 1, .u8 1, .u8 0, .u8 1, .u8 z.ctorIdx]
        | some .doubleDamage => [.u8 1, .u8 1, .u8 1, .u8 0]
      let sent := fun b : Bool => if permitNow (e b) = s.part.cpl.permit then [] else [Frame.mk .notice 0x85 0 (items b ++ fault)]
      (s.part.link 0).state = .up → old.length < 55 →
      (Takes 0 0x23 s.part → ∃ t : State, exec (.lingo 0 number) s = .next t
        ∧ (t.part.link 0).transmit = old ++ ⟨.reply, 0x23, number, .u8 0 :: items true⟩ :: sent true)
      ∧ (Takes 0 0x24 s.part → ∃ t : State, exec (.linstp 0 number) s = .next t
        ∧ (t.part.link 0).transmit = old ++ ⟨.reply, 0x24, number, .u8 0 :: items false⟩ :: sent false))

/-- R77, R82, R86: a map that passes the checks of a strip in SCANNING is stored and the strip becomes MAPPED at the tail of the
planner queue; with the planner IDLE and its queue empty planning starts at once, the strip PLANNING with its snapshot taken. The
reply shows the queue's length and whether the planner was BUSY. R77, Table 4-3: a map whose length differs from L_B by more than
L_tol is MISMATCH with L_B (four bytes: log entry 7); one for a strip rejected NO_MAP is LATE; one for a strip past SCANNING is
WRONGSTATE. None changes anything. One marked overflowed is stored, and the strip becomes REJECTING MAP_OVERFLOW; one that finds
32 tags queued makes it REJECTING with OVERLOAD. -/
def Obligations.MappostQueuesOrRejectsStrip : Prop :=
  (∀ (l : LinkNo) (number len : Nat) (x : Strip) (f : MapForm) (s : State), Running s.part → Settled s.part → Takes l 0x29 s.part →
      let p := s.part
      let y := { x with map := some ⟨f.defects, false⟩ }
      f.tag = x.tag → HoldsStrip x p → x.state = .scanning → x.lenB = some len → f.defects.length ≤ 16 → (∀ d ∈ f.defects, d.cls ≤ 15) →
      f.length ≤ len + p.ztr.geo.lTol → len ≤ f.length + p.ztr.geo.lTol → f.overflow = false →
      (∀ j : PlanJob, p.cpl.job = some j → p.cpl.queue.length < 32 → Replies (.mappost l number f) l 0x29 number s
        ⟨.done, [.u8 (p.cpl.queue.length + 1), .u8 1]⟩
        { writeStrip { y with state := .mapped } p with cpl.queue := p.cpl.queue ++ [x.tag] })
      ∧ (p.cpl.job = none → p.cpl.queue = [] → Replies (.mappost l number f) l 0x29 number s ⟨.done, [.u8 1, .u8 0]⟩
        { writeStrip { y with state := .planning } p with
          cpl.job := some ⟨x.tag, ⟨len, f.defects, profileOf x.ctx p, gradeTable x.species p, p.ztr.geo.rSaw,
            bonusTable (profileOf x.ctx p) x.species p⟩, false⟩ }))
  ∧ (∀ (l : LinkNo) (number len : Nat) (x : Strip) (f : MapForm) (s : State), Running s.part → Settled s.part → Takes l 0x29 s.part →
      let p := s.part
      let q := cancel (.deadline x.tag) (leavePlanner x.tag p)
      let agrees := f.length ≤ len + p.ztr.geo.lTol ∧ len ≤ f.length + p.ztr.geo.lTol
      let answer := fun (r : Reply) (e : Part) => Replies (.mappost l number f) l 0x29 number s r e
      f.tag = x.tag → HoldsStrip x p → x.lenB = some len → f.defects.length ≤ 16 → (∀ d ∈ f.defects, d.cls ≤ 15) →
      (x.state = .rejecting → x.reject = some .noMap → answer ⟨.late, []⟩ p)
      ∧ (x.state ≠ .scanning → ¬ (x.state = .rejecting ∧ x.reject = some .noMap) → answer ⟨.wrongState, []⟩ p)
      ∧ (x.state = .scanning → ¬ agrees → answer ⟨.mismatch, [.u32 len]⟩ p)
      ∧ (x.state = .scanning → agrees → f.overflow = true → answer ⟨.done, []⟩
        (writeStrip { x with map := some ⟨f.defects, true⟩, state := .rejecting, reject := some .mapOverflow } q))
      ∧ (x.state = .scanning → agrees → f.overflow = false → 32 ≤ p.cpl.queue.length → answer ⟨.overload, []⟩
        (writeStrip { x with state := .rejecting, reject := some .overload } q)))

/-- The grade after a DOWNGRADE or a SPOILED (R146). -/
def gradeLowered (spoiled : Bool) : Grade → Grade
  | .A => if spoiled then .W else .B
  | .B => if spoiled then .W else .C
  | .C => .W
  | .W => .W

/-- R144 to R148, Table 7-4: OUTCOME, result by result (0 OK, 1 DOWNGRADE, 2 SPOILED) and state by state. In LUG or BELT_E, not yet
DOWNGRADED: OK is DONE and changes nothing; DOWNGRADE lowers the grade by one, SPOILED makes it W, either flags the piece
DOWNGRADED; a grade that changes releases the reservation, and the piece is then attributed afresh to the order chosen for its new
grade, whose reserved area rises, or left without one, as are a piece of grade W and one flagged UNSURE; of a piece of grade W
already only the flag changes. A DOWNGRADED piece, one in PLANNED or BELT_C, and a strip are WRONGSTATE. In UNSORTED it is LATE,
and in ASSIGNED too, where DOWNGRADE and SPOILED, but not OK, set INSPECT on the bundle the piece is bound for. A tag not current
is STALE, a result above 2 RANGE. Each reply carries grade and reserved order, each behind a presence byte (log entry 7), or
neither; the result numbers and a strip's reply are log entry 7's too. -/
def Obligations.OutcomeChangesGrade : Prop :=
  ∀ (l : LinkNo) (number : Nat) (s : State), Running s.part → Settled s.part → Takes l 0x30 s.part →
    let p := s.part
    let fields := fun (g : Grade) (o : Option OrderNo) =>
      [Item.u8 1, .u8 g.ctorIdx] ++ match o with
        | none => [.u8 0]
        | some o => [.u8 1, .u8 o.val]
    let answer := fun (tag result : Nat) (r : Reply) (e : Part) => Replies (.outcome l number tag result) l 0x30 number s r e
    (∀ y : Piece, HoldsPiece y p → (y.state = .lug ∨ y.state = .beltE) → y.downgraded = false →
      answer y.tag 0 ⟨.done, fields y.grade y.reserved⟩ p
      ∧ ∀ spoiled : Bool,
        let g := gradeLowered spoiled y.grade
        let x := { y with grade := g, downgraded := true, reserved := none }
        let result := if spoiled then 2 else 1
        let q := match y.reserved with
          | none => p
          | some o => p.setOrder o ((p.order o).map fun r => { r with reservedArea := r.reservedArea - y.area })
        (y.grade ≠ .W → (g = .W ∨ y.unsure = true ∨ reserveChoice x q = none) →
          answer y.tag result ⟨.done, fields g none⟩ (writePiece x q))
        ∧ (∀ (o : OrderNo) (r : Order), y.grade ≠ .W → g ≠ .W → y.unsure = false → reserveChoice x q = some o → q.order o = some r →
          answer y.tag result ⟨.done, fields g (some o)⟩
            (writePiece { x with reserved := some o } (q.setOrder o (some { r with reservedArea := r.reservedArea + y.area }))))
        ∧ (y.grade = .W → answer y.tag result ⟨.done, fields .W y.reserved⟩ (writePiece { y with downgraded := true } p)))
    ∧ (∀ (y : Piece) (result : Nat), HoldsPiece y p → result ≤ 2 →
      (((y.state = .lug ∨ y.state = .beltE) ∧ y.downgraded = true ∨ y.state = .planned ∨ y.state = .beltC) →
        answer y.tag result ⟨.wrongState, fields y.grade y.reserved⟩ p)
      ∧ (y.state = .unsorted → answer y.tag result ⟨.late, fields y.grade y.reserved⟩ p)
      ∧ (y.state = .assigned → result = 0 → answer y.tag 0 ⟨.late, fields y.grade y.reserved⟩ p)
      ∧ (∀ (b : BayNo) (u : Bundle), y.state = .assigned → y.bay = some b → (p.bay b).bundle = some u → result ≠ 0 →
        answer y.tag result ⟨.late, fields y.grade y.reserved⟩ (p.setBay b { p.bay b with bundle := some { u with inspect := true } })))
    ∧ (∀ (x : Strip) (result : Nat), HoldsStrip x p → result ≤ 2 → answer x.tag result ⟨.wrongState, [.u8 0, .u8 0]⟩ p)
    ∧ (∀ tag result : Nat, CleanSlot (slotOf tag) p → result ≤ 2 →
      ((p.slot (slotOf tag)).gen ≠ genOf tag ∨ (p.slot (slotOf tag)).contents = .nothing) →
      answer tag result ⟨.stale, [.u8 0, .u8 0]⟩ p)
    ∧ (∀ tag result : Nat, 2 < result → answer tag result ⟨.range, [.u8 0, .u8 0]⟩ p)

/-! Requests of the Order Table (chapter 8). -/

/-- No bay is IDLE and unheld: bundle opening finds none (R178). -/
abbrev noFreeBay (p : Part) : Prop := ∀ b : BayNo, (p.bay b).state = .idle → (p.bay b).held = true

/-- R154, R155, R163, R175, R178: ORDADM of a new number in range takes the lowest EMPTY slot, ACTIVE with every count and area 0 and
the raised admission sequence; bundle opening is tried, and with one bay IDLE and unheld and no other order a bundle with serial 1
opens there. A number held already is DUPLICATE, and 32 slots taken is FULL; neither changes anything. That the state byte of
DUPLICATE counts EMPTY as 0 and ACTIVE as 1 is the model's choice (log entry 7). -/
def Obligations.OrdadmAdmitsOrder : Prop :=
  ∀ (number : Nat) (f : OrderForm) (g : Grade) (s : State), Running s.part → Settled s.part → Takes 0 0x38 s.part →
    let p := s.part
    let n := p.ort.seq + 1
    let order := fun opened : Nat => (⟨.active, f.number, f.species, g, f.classes, f.target, f.tolerance, f.shortLength, f.shortCap,
      f.ordered, opened, 0, f.priority, n, 0, 0, 0, 0⟩ : Order)
    let answer := fun (r : Reply) (e : Part) => Replies (.ordadm 0 number f) 0 0x38 number s r e
    OrderForm.inRange f = true → orderGrade f.grade = some g → p.ort.seq < 4294967295 →
    (∀ o : OrderNo, findOrder f.number p = none → emptySlot p = some o →
      (noFreeBay p → answer ⟨.done, [.u8 o.val, .u32 n, .u16 0]⟩ ({ p with ort.seq := n }.setOrder o (some (order 0))))
      ∧ (∀ b : BayNo, (p.bay b).state = .idle → (p.bay b).held = false →
        (∀ c : BayNo, c ≠ b → (p.bay c).state = .idle → (p.bay c).held = true) → (∀ q : OrderNo, p.order q = none) →
        answer ⟨.done, [.u8 o.val, .u32 n, .u16 1]⟩ (({ p with ort.seq := n }.setOrder o (some (order 1))).setBay b { p.bay b with
          state := .opened
          bundle := some ⟨o, f.number, 1, 0, 0, 0, 0, 0, [], false, false, none⟩ })))
    ∧ (∀ (o : OrderNo) (r : Order), findOrder f.number p = some o → p.order o = some r →
      answer ⟨.duplicate, [.u8 o.val, .u8 (r.state.ctorIdx + 1)]⟩ p)
    ∧ (findOrder f.number p = none → emptySlot p = none → answer ⟨.full, []⟩ p)

/-- R165, R167: ORDAMD sets bundles ordered, not below bundles opened. An ACTIVE order whose bundles retired it then equals is
COMPLETE, its reservations released; a COMPLETE order with more to retire is ACTIVE again. A CANCELLING or CANCELLED order is
WRONGSTATE. Here no bay is free for an opening, and no piece is reserved to the order that is completed. That the reply's state
byte is 1 for ACTIVE and 3 for COMPLETE, counted from EMPTY 0, is the model's choice (log entry 7). -/
def Obligations.OrdamdSetsBundlesOrdered : Prop :=
  ∀ (number order n : Nat) (o : OrderNo) (r : Order) (s : State), Running s.part → Settled s.part → Takes 0 0x39 s.part →
    let p := s.part
    let answer := fun (x : Reply) (e : Part) => Replies (.ordamd 0 number order n) 0 0x39 number s x e
    let done := fun k : Nat => (⟨.done, [.u8 k, .u32 (n * r.target), .u16 r.opened]⟩ : Reply)
    1 ≤ n → n ≤ 9999 → findOrder order p = some o → p.order o = some r → noFreeBay p →
    (r.state = .active → r.opened ≤ n → r.retired ≠ n → answer (done 1) (p.setOrder o (some { r with ordered := n })))
    ∧ (r.state = .active → r.opened ≤ n → r.retired = n → slotsWhere (isReservedTo o) p = [] →
      answer (done 3) (p.setOrder o (some { r with ordered := n, state := .complete })))
    ∧ (r.state = .complete → r.opened ≤ n → r.retired < n →
      answer (done 1) (p.setOrder o (some { r with ordered := n, state := .active })))
    ∧ ((r.state = .active ∨ r.state = .complete) → n < r.opened → answer ⟨.range, [.u16 r.opened]⟩ p)
    ∧ ((r.state = .cancelling ∨ r.state = .cancelled) → answer ⟨.wrongState, []⟩ p)

/-- R166, R168, R188: ORDCAN of an ACTIVE order with no bundle in any bay makes it CANCELLED; with one OPEN bundle that has area in
transit it is CANCELLING, and the bundle is force-closed: CLOSING and SHORT. In any other state it is WRONGSTATE, and an unknown
number NOTFOUND. Here no piece is reserved to the order. That the reply's state byte is 2 for CANCELLING and 4 for CANCELLED is
the model's choice (log entry 7). R169, R171: ORDREM of a COMPLETE or CANCELLED order answers with its bundles retired, landed and
retired area and empties its slot; ORDSTA reports the change to EMPTY after the reply; that it carries number, counts and areas
from before the slot was emptied is the model's choice (log entry 28), as is the byte of its states (log entry 7). An ACTIVE or
CANCELLING order is WRONGSTATE, an unknown number NOTFOUND, with nothing changed. -/
def Obligations.OrdcanAndOrdremEndOrders : Prop :=
  (∀ (number order : Nat) (s : State), Running s.part → Settled s.part → Takes 0 0x3A s.part →
      let p := s.part
      let answer := fun (x : Reply) (e : Part) => Replies (.ordcan 0 number order) 0 0x3A number s x e
      (∀ (o : OrderNo) (r : Order), findOrder order p = some o → p.order o = some r →
        (r.state = .active → slotsWhere (isReservedTo o) p = [] → baysOf o p = [] →
          answer ⟨.done, [.u8 4]⟩ (p.setOrder o (some { r with state := .cancelled })))
        ∧ (∀ (b : BayNo) (u : Bundle), r.state = .active → slotsWhere (isReservedTo o) p = [] → baysOf o p = [b] →
          (p.bay b).state = .opened → (p.bay b).bundle = some u → 0 < u.transit →
          answer ⟨.done, [.u8 2]⟩ ((p.setOrder o (some { r with state := .cancelling })).setBay b { p.bay b with
            state := .closing
            bundle := some { u with short := true } }))
        ∧ (r.state ≠ .active → answer ⟨.wrongState, []⟩ p))
      ∧ (findOrder order p = none → answer ⟨.notFound, []⟩ p))
  ∧ (∀ (number order : Nat) (s : State), Running s.part → Settled s.part → Takes 0 0x3B s.part →
      let p := s.part
      let answer := fun (x : Reply) (e : Part) => Replies (.ordrem 0 number order) 0 0x3B number s x e
      (∀ (o : OrderNo) (r : Order), findOrder order p = some o → p.order o = some r →
        ((r.state = .complete ∨ r.state = .cancelled) →
          answer ⟨.done, [.u16 r.retired, .u32 r.landedArea, .u32 r.retiredArea]⟩ (p.setOrder o none))
        ∧ ((r.state = .complete ∨ r.state = .cancelled) → (p.link 0).state = .up → (p.link 0).transmit.length < 55 →
          ∃ t : State, exec (.ordrem 0 number order) s = .next t ∧ (p.link 0).transmit
            ++ [⟨.reply, 0x3B, number, [.u8 0, .u16 r.retired, .u32 r.landedArea, .u32 r.retiredArea]⟩,
              ⟨.notice, 0x84, 0, [.u8 o.val, .u32 r.number, .u8 (r.state.ctorIdx + 1), .u8 0, .u16 r.ordered, .u16 r.opened,
                .u16 r.retired, .u32 r.landedArea, .u32 r.retiredArea]⟩] <+: (t.part.link 0).transmit)
        ∧ ((r.state = .active ∨ r.state = .cancelling) → answer ⟨.wrongState, []⟩ p))
      ∧ (findOrder order p = none → answer ⟨.notFound, []⟩ p))

/-- R156: the effective shortfall of an order is its ordered area less its landed, transit and reserved areas, clamped to 0 below and
so to the ordered area above; it is 0 when every bundle ordered has been opened and no bay holds an OPEN bundle of the order. -/
def Obligations.ShortfallIsClamped : Prop :=
  ∀ (o : OrderNo) (r : Order) (p : Part),
    ((r.opened = r.ordered ∧ ∀ b : BayNo, ∀ u ∈ (p.bay b).bundle, u.slot = o → (p.bay b).state ≠ .opened) → shortfall o r p = 0)
    ∧ ((r.opened ≠ r.ordered ∨ ∃ b : BayNo, ∃ u ∈ (p.bay b).bundle, u.slot = o ∧ (p.bay b).state = .opened) →
      (shortfall o r p : Int) = max 0 ((r.ordered * r.target : Nat) - (r.landedArea + r.transitArea + r.reservedArea : Nat) : Int))
    ∧ shortfall o r p ≤ r.ordered * r.target

/-! Requests on bays and labels (chapters 9 and 10). -/

/-- A bay with its sender's hold flag set or cleared: the supervisor's on link 0, the STACKER's on a station link (R174, R176, R212). -/
def withHold (l : LinkNo) (v : Bool) (x : Bay) : Bay := if l = 0 then { x with supHold := v } else { x with staHold := v }

/-- R176, R184: BAYHLD sets the sender's flag. In a bay already held, or one without kicks that is not CLOSING, that is all; an OPEN
bay that was unheld loses its kicks: here its one ASSIGNED piece becomes UNSORTED, and its area leaves the transit of bundle and
order. The reply's fields of a bay without a bundle, and their presence bytes, are the model's choice (log entries 8 and 7). R176,
R184, R185: BAYHLD of an unheld CLOSING bay with one kick: the piece becomes UNSORTED, its area leaves the transit of bundle and
order, and the bundle is re-evaluated: it stays CLOSING with transit left and the target reached, SHORT set or the order not
ACTIVE; it becomes FULL with none left and one of those three; else it returns to OPEN. R177, R178: BAYREL clears the sender's
flag. A bay left held, or not IDLE, is changed no further; an IDLE bay left unheld tries opening, and the order that the opening
policy prefers opens a bundle there, its serial the raised count of bundles opened. Here no other bay is free. That the reply
shows the bay after the opening is the model's inference (log entry 32), and the presence bytes its choice (log entry 7). -/
def Obligations.HoldRequestsChangeBay : Prop :=
  (∀ (l : LinkNo) (number : Nat) (b : BayNo) (s : State), Running s.part → Settled s.part → Takes l 0x40 s.part →
      let p := s.part
      let x := withHold l true (p.bay b)
      let answer := fun (n : Nat) (z : Bay) (e : Part) =>
        Replies (.bayhld l number (b.val + 1)) l 0x40 number s ⟨.done, holdReply z n⟩ e
      ((p.bay b).held = true → answer 0 x (p.setBay b x))
      ∧ ((p.bay b).held = false → p.kickQueue b = [] → (p.bay b).state ≠ .closing → answer 0 x (p.setBay b x))
      ∧ (∀ (k : KickEntry) (y : Piece) (u : Bundle) (r : Order), (p.bay b).held = false → p.kickQueue b = [k] → k.tag = y.tag →
        HoldsPiece y p → (p.bay b).state = .opened → (p.bay b).bundle = some u → p.order u.slot = some r → r.shortLength ≤ y.len →
        let z := { x with bundle := some { u with transit := u.transit - y.area } }
        answer 1 z (writePiece { y with state := .unsorted, bay := none, serial := none }
          (((cancel (.kick b y.tag) (p.setKickQueue b [])).setBay b z).setOrder u.slot (some { r with
            transitArea := r.transitArea - y.area })))))
  ∧ (∀ (l : LinkNo) (number : Nat) (b : BayNo) (k : KickEntry) (y : Piece) (u : Bundle) (r : Order) (s : State), Running s.part →
      Settled s.part → Takes l 0x40 s.part →
      let p := s.part
      let x := withHold l true (p.bay b)
      let u' := { u with transit := u.transit - y.area }
      let e := fun z : Bay => writePiece { y with state := .unsorted, bay := none, serial := none }
        (((cancel (.kick b y.tag) (p.setKickQueue b [])).setBay b z).setOrder u.slot (some { r with
          transitArea := r.transitArea - y.area }))
      let answer := fun (z : Bay) (e : Part) => Replies (.bayhld l number (b.val + 1)) l 0x40 number s ⟨.done, holdReply z 1⟩ e
      let kept := r.target ≤ u.landed + u'.transit ∨ u.short = true ∨ r.state ≠ .active
      (p.bay b).held = false → p.kickQueue b = [k] → k.tag = y.tag → HoldsPiece y p → (p.bay b).state = .closing →
      (p.bay b).bundle = some u → p.order u.slot = some r → r.shortLength ≤ y.len →
      (0 < u'.transit → kept → let z := { x with bundle := some u' }; answer z (e z))
      ∧ (¬ kept → let z := { x with state := .opened, bundle := some u' }; answer z (e z))
      ∧ (u'.transit = 0 → kept → p.lif.coalesce = none → 0 < p.lif.delay →
        let v := { u' with short := u.short || decide (u.landed < r.target) }
        let z := { x with state := .full, bundle := some { v with label := some (makeLabel b v r) } }
        answer z { e z with lif.coalesce := some ⟨0, 0, 1, p.lif.delay, 8 * p.lif.delay⟩ }))
  ∧ (∀ (l : LinkNo) (number : Nat) (b : BayNo) (s : State), Running s.part → Settled s.part → Takes l 0x41 s.part →
      let p := s.part
      let x := withHold l false (p.bay b)
      let answer := fun (z : Bay) (e : Part) => Replies (.bayrel l number (b.val + 1)) l 0x41 number s ⟨.done, holdReply z 0⟩ e
      ((x.held = true ∨ x.state ≠ .idle) → answer x (p.setBay b x))
      ∧ (∀ (o : OrderNo) (r : Order), (p.bay b).held = true → x.held = false → x.state = .idle →
        (∀ c : BayNo, c ≠ b → (p.bay c).state = .idle → (p.bay c).held = true) → openChoice p = some o → p.order o = some r →
        let z := { x with
          state := .opened
          bundle := some ⟨o, r.number, r.opened + 1, 0, 0, 0, 0, 0, [], false, false, none⟩ }
        answer z ((p.setOrder o (some { r with opened := r.opened + 1 })).setBay b z)))

/-- R178: the order preferred for an opening is ACTIVE with bundles left to open, of highest priority, then of lowest admission
sequence, then in the lowest slot; none is chosen when no order may open a bundle. R157: the order that attribution chooses for a
piece is ACTIVE, of its species and grade, takes its class and has an effective shortfall above 0; of such orders it is the one of
highest priority, then in the lowest slot; none is chosen where there is none. -/
def Obligations.OpeningPrefersPriorityThenSequence : Prop :=
  (∀ p : Part,
      (∀ o : OrderNo, openChoice p = some o → ∃ r : Order, p.order o = some r ∧ r.state = .active ∧ r.opened < r.ordered
        ∧ ∀ (q : OrderNo) (x : Order), p.order q = some x → x.state = .active → x.opened < x.ordered →
          x.priority < r.priority ∨ (x.priority = r.priority ∧ (r.seq < x.seq ∨ (r.seq = x.seq ∧ o ≤ q))))
      ∧ (openChoice p = none → ∀ (q : OrderNo) (x : Order), p.order q = some x → ¬ (x.state = .active ∧ x.opened < x.ordered)))
  ∧ (∀ (y : Piece) (p : Part),
      let takes := fun (o : OrderNo) (r : Order) => p.order o = some r ∧ r.state = .active ∧ r.species = y.species ∧ r.grade = y.grade
        ∧ y.len ∈ r.classes ∧ 0 < shortfall o r p
      (∀ o : OrderNo, reserveChoice y p = some o → ∃ r : Order, takes o r
        ∧ ∀ (q : OrderNo) (x : Order), takes q x → x.priority < r.priority ∨ (x.priority = r.priority ∧ o ≤ q))
      ∧ (reserveChoice y p = none → ∀ (q : OrderNo) (x : Order), ¬ takes q x))

/-- R187 to R189: BAYCLS of an OPEN bundle with area in transit makes the bay CLOSING and sets SHORT; of one with landed area alone it
makes the bay FULL, with its label composed, one countable event; an empty bundle is dismissed, its order's bundles opened one
lower, here in a held bay. A bay that is not OPEN is WRONGSTATE. R196: BDLRDY follows the reply of the force close that fills a
bay: it is sent to the supervisor and to the enrolled LABELLER, with the bay number and every field of the label. That the bay
number stands once, as the label's first field, and the label's layout are the model's choice (log entry 7). -/
def Obligations.BayclsForcesCloseAndReports : Prop :=
  (∀ (number : Nat) (b : BayNo) (s : State), Running s.part → Settled s.part → Takes 0 0x42 s.part →
      let p := s.part
      let x := p.bay b
      let flag := fun v : Bool => Item.u8 (if v then 1 else 0)
      let answer := fun (st : Status) (fs : List Item) (e : Part) => Replies (.baycls 0 number (b.val + 1)) 0 0x42 number s ⟨st, fs⟩ e
      (∀ (u : Bundle) (r : Order), x.state = .opened → x.bundle = some u → p.order u.slot = some r →
        (0 < u.transit → answer .done [.u8 2, flag x.supHold, flag x.staHold, .u32 u.order, .u16 u.serial, .u32 u.landed, .u32 u.transit,
            .u8 1, flag u.inspect]
          (p.setBay b { x with state := .closing, bundle := some { u with short := true } }))
        ∧ (u.transit = 0 → 0 < u.landed → p.lif.coalesce = none → 0 < p.lif.delay →
          answer .done [.u8 3, flag x.supHold, flag x.staHold, .u32 u.order, .u16 u.serial, .u32 u.landed, .u32 0, .u8 1, flag u.inspect]
            { p.setBay b { x with
                state := .full
                bundle := some { u with short := true, label := some (makeLabel b { u with short := true } r) } } with
              lif.coalesce := some ⟨0, 0, 1, p.lif.delay, 8 * p.lif.delay⟩ })
        ∧ (u.transit = 0 → u.landed = 0 → x.held = true → r.state = .active →
          answer .done [.u8 0, flag x.supHold, flag x.staHold, .u32 u.order, .u16 u.serial]
            ((p.setBay b { x with state := .idle, bundle := none }).setOrder u.slot (some { r with opened := r.opened - 1 }))))
      ∧ (x.state ≠ .opened → answer .wrongState [] p))
  ∧ (∀ (number : Nat) (b : BayNo) (u : Bundle) (r : Order) (l : LinkNo) (s : State), Running s.part → Settled s.part →
      Takes 0 0x42 s.part →
      let p := s.part
      let notice : Frame := ⟨.notice, 0x83, 0, labelItems (makeLabel b { u with short := true } r)⟩
      (p.bay b).state = .opened → (p.bay b).bundle = some u → p.order u.slot = some r → u.transit = 0 → 0 < u.landed →
      u.landed < r.target → p.lif.coalesce = none → 0 < p.lif.delay → (p.link 0).state = .up → (p.link 0).transmit.length < 55 →
      enrolledLink .labeller p = some l → l ≠ 0 → (p.link l).transmit.length < 56 →
      ∃ t : State, exec (.baycls 0 number (b.val + 1)) s = .next t ∧ notice ∈ (t.part.link 0).transmit ∧ notice ∈ (t.part.link l).transmit
        ∧ ∃ fs : List Item, (p.link 0).transmit ++ [⟨.reply, 0x42, number, fs⟩, notice] <+: (t.part.link 0).transmit)

/-- R164, R167, R168, R199, R200: BDLRET of a FULL bay that names its bundle retires it: bundles retired and retired area of its order
rise, an ACTIVE order whose last bundle it was is COMPLETE, a CANCELLING one with no bundle left CANCELLED, and the bay is IDLE. A
bundle named wrongly is STALE, a bay not FULL WRONGSTATE. Here the bay is held, no other holds a bundle of the order, and no piece
is reserved to it. The presence bytes at the end of its DONE reply, and its order state byte, counted from EMPTY 0, are the
model's choice (log entry 7). -/
def Obligations.BdlretRetiresBundle : Prop :=
  ∀ (l : LinkNo) (number order serial : Nat) (b : BayNo) (s : State), Running s.part → Settled s.part → Takes l 0x49 s.part →
    let p := s.part
    let x := p.bay b
    let answer := fun (r : Reply) (e : Part) => Replies (.bdlret l number (b.val + 1) order serial) l 0x49 number s r e
    1 ≤ order → order ≤ 99999 → 1 ≤ serial → serial ≤ 9999 →
    (∀ (u : Bundle) (r : Order), x.state = .full → x.bundle = some u → p.order u.slot = some r → u.order = order → u.serial = serial →
      x.held = true → baysOf u.slot p = [b] → slotsWhere (isReservedTo u.slot) p = [] →
      let st : OrderState := match r.state with
        | .active => if r.retired + 1 = r.ordered then .complete else .active
        | .cancelling => .cancelled
        | y => y
      answer ⟨.done, [.u32 order, .u16 serial, .u32 u.landed, .u16 (r.retired + 1), .u32 (r.retiredArea + u.landed),
          .u8 (st.ctorIdx + 1), .u8 0, .u8 0, .u8 0]⟩
        ((p.setBay b { x with state := .idle, bundle := none }).setOrder u.slot (some { r with
          state := st
          retired := r.retired + 1
          retiredArea := r.retiredArea + u.landed })))
    ∧ (∀ u : Bundle, x.state = .full → x.bundle = some u → (u.order ≠ order ∨ u.serial ≠ serial) →
      answer ⟨.stale, [.u32 u.order, .u16 u.serial]⟩ p)
    ∧ (x.state ≠ .full → answer ⟨.wrongState, [.u8 x.state.ctorIdx]⟩ p)

/-- R6, R28: RECRD answers DONE with every field of the record that the tag names, and changes nothing; a tag whose slot is free or at
another generation is STALE. The presence bytes of optional fields in this reply and in those of ERRRD and ZONRD, ZONRD's zone and
list numbers, and ORDRD's selector are the model's choice (log entry 7). R24, R25: ERRRD answers with the capture, or that it is
empty, and OVERRUN; then the capture is empty and OVERRUN clear. R58, R136, R150: ZONRD answers DONE with the fields of the zone
and list it names, as many entries of the list from the first index as a payload holds, up to 32, and changes nothing; a zone,
list or first index outside its range is RANGE. R76: MAPNEXT names the first SCANNING strip of zone B from the head, with its
length, deadline, the distance left and how many wait, and changes nothing; with none in SCANNING it is NOTFOUND. Here zone B
holds one tagged entry, or none. L_B's four bytes are the model's choice (log entry 7). R152, R153, R156, R170: ORDRD by slot or
by number answers with every field of the order, its ordered area and effective shortfall, the bays that hold a bundle of it, and
the admission sequence counter, and changes nothing. The order of its lists, the tolerance's width and the count of its state byte
are the model's choice (log entry 7). R198: LBLRD of a FULL bay answers with its label record and both hold flags; of a bay in any
other state WRONGSTATE with the bay state; of a number outside 1 to 8 RANGE. It changes nothing. The label's layout, the bay
number standing once, is the model's choice (log entry 7). R216: CNTRD answers with every counter, the counts and each link's
state, role, tool list and counters, and changes nothing. Its widths and the role's presence byte are the model's choice (log
entry 7). -/
def Obligations.ReadRequestsAnswerState : Prop :=
  (∀ (l : LinkNo) (number : Nat) (s : State), Running s.part → Settled s.part → Takes l 0x10 s.part →
      (∀ x : Strip, HoldsStrip x s.part → Replies (.recrd l number x.tag) l 0x10 number s ⟨.done, stripItems x⟩ s.part)
      ∧ (∀ y : Piece, HoldsPiece y s.part → Replies (.recrd l number y.tag) l 0x10 number s ⟨.done, pieceItems y⟩ s.part)
      ∧ (∀ tag : Nat, CleanSlot (slotOf tag) s.part →
        ((s.part.slot (slotOf tag)).gen ≠ genOf tag ∨ (s.part.slot (slotOf tag)).contents = .nothing) →
        Replies (.recrd l number tag) l 0x10 number s ⟨.stale, []⟩ s.part))
  ∧ (∀ (number : Nat) (s : State), Running s.part → Settled s.part → Takes 0 0x12 s.part →
      let after := { s.part with rst.capture := none, rst.overrun := false }
      let flag : Item := .u8 (if s.part.rst.overrun then 1 else 0)
      (s.part.rst.capture = none → Replies (.errrd 0 number) 0 0x12 number s ⟨.done, [.u8 0, flag]⟩ after)
      ∧ (∀ c : Capture, s.part.rst.capture = some c → Replies (.errrd 0 number) 0 0x12 number s
          ⟨.done, [.u8 1, .u8 c.kind.ctorIdx, .u16 c.slot.val, .u16 c.tag, .u8 c.reader.ctorIdx, flag]⟩ after))
  ∧ (∀ (number zone list first : Nat) (s : State), Running s.part → Settled s.part → Takes 0 0x1A s.part →
      (∀ (z : Zone) (x : ZoneList), zoneOf zone = some z → listOf z list = some x → first ≤ 63 →
        ∃ entries : List (List Item), entries <+: (listEntries z x s.part).drop first ∧ entries.length ≤ 32
          ∧ 1 + itemsSize (zonrdHead z x s.part ++ listItems entries ++ zonrdTail z s.part) ≤ 255
          ∧ (∀ e ∈ ((listEntries z x s.part).drop first)[entries.length]?, entries.length = 32
            ∨ 255 < 1 + itemsSize (zonrdHead z x s.part ++ listItems (entries ++ [e]) ++ zonrdTail z s.part))
          ∧ Replies (.zonrd 0 number zone list first) 0 0x1A number s
            ⟨.done, zonrdHead z x s.part ++ listItems entries ++ zonrdTail z s.part⟩ s.part)
      ∧ ((zoneOf zone = none ∨ (∃ z, zoneOf zone = some z ∧ listOf z list = none) ∨ 63 < first) →
        Replies (.zonrd 0 number zone list first) 0 0x1A number s ⟨.range, []⟩ s.part))
  ∧ (∀ (l : LinkNo) (number : Nat) (s : State), Running s.part → Settled s.part → Takes l 0x28 s.part →
      (∀ (x : Strip) (e : Entry) (len d : Nat), s.part.queue .B = [e] → e.tag = some x.tag → HoldsStrip x s.part → x.state = .scanning →
        x.lenB = some len → x.deadline = some d → Replies (.mapnext l number) l 0x28 number s
          ⟨.done, [.u16 x.tag, .u32 len, .u32 d, .u32 (minus .B d (s.part.counter .B)), .u8 1]⟩ s.part)
      ∧ (s.part.queue .B = [] → Replies (.mapnext l number) l 0x28 number s ⟨.notFound, [.u8 0]⟩ s.part))
  ∧ (∀ (number value : Nat) (s : State), Running s.part → Settled s.part → Takes 0 0x3C s.part →
      (∀ o : OrderNo, Replies (.ordrd 0 number 0 o.val) 0 0x3C number s ⟨.done, orderItems o s.part⟩ s.part)
      ∧ (31 < value → Replies (.ordrd 0 number 0 value) 0 0x3C number s ⟨.range, []⟩ s.part)
      ∧ (∀ o : OrderNo, 1 ≤ value → value ≤ 99999 → findOrder value s.part = some o →
        Replies (.ordrd 0 number 1 value) 0 0x3C number s ⟨.done, orderItems o s.part⟩ s.part)
      ∧ (1 ≤ value → value ≤ 99999 → findOrder value s.part = none →
        Replies (.ordrd 0 number 1 value) 0 0x3C number s ⟨.notFound, []⟩ s.part))
  ∧ (∀ (l : LinkNo) (number bay : Nat) (b : BayNo) (s : State), Running s.part → Settled s.part → Takes l 0x48 s.part →
      let x := s.part.bay b
      (∀ (u : Bundle) (y : Label), x.state = .full → x.bundle = some u → u.label = some y →
        Replies (.lblrd l number (b.val + 1)) l 0x48 number s
          ⟨.done, labelItems y ++ [.u8 (if x.supHold then 1 else 0), .u8 (if x.staHold then 1 else 0)]⟩ s.part)
      ∧ (x.state ≠ .full → Replies (.lblrd l number (b.val + 1)) l 0x48 number s ⟨.wrongState, [.u8 x.state.ctorIdx]⟩ s.part)
      ∧ ((bay = 0 ∨ 8 < bay) → Replies (.lblrd l number bay) l 0x48 number s ⟨.range, []⟩ s.part))
  ∧ (∀ (number : Nat) (s : State), Running s.part → Settled s.part → Takes 0 0x51 s.part →
      Replies (.cntrd 0 number) 0 0x51 number s ⟨.done, counterItems s.part⟩ s.part)

/-! The cut plan (chapter 5). -/

/-- A place as Stages 3 to 6 give it: the class at its place c of the list, its footprint within the strip, admissible, with its grade, value and
area (R99 to R104). -/
def IsPlace (x : Snapshot) (pl : Place) : Prop :=
  ∃ c len : Nat, x.profile.classes[c]? = some len ∧ pl.cls = c + 1 ∧ pl.len = len ∧ pl.foot = 10 * len + 2 * x.profile.trim
    ∧ pl.start + pl.foot ≤ x.length ∧ gradeOf x.limits (overlapped x pl.start pl.foot) = some pl.grade
    ∧ pl.value = min 4095 ((valueRow x.profile pl.grade).getD c 0 + (x.bonus.getD pl.grade.ctorIdx []).getD c 0)
    ∧ pl.area = (len * x.profile.width + 500) / 1000

/-- A start is an expanded end of a normalised defect. -/
def IsExpandedEnd (x : Snapshot) (n : Nat) : Prop := ∃ d ∈ normalised x, d.stop = n

/-- The starts follow R105, after a place that ends at `prev`, or from the leading edge. -/
def StartsFollow (x : Snapshot) : Option Nat → List Place → Prop
  | _, [] => True
  | none, pl :: rest =>
    (pl.start = 0 ∨ (IsExpandedEnd x pl.start ∧ x.profile.kerf ≤ pl.start)) ∧ StartsFollow x (some (pl.start + pl.foot)) rest
  | some e, pl :: rest =>
    (pl.start = e + x.profile.kerf ∨ (IsExpandedEnd x pl.start ∧ e + 2 * x.profile.kerf ≤ pl.start))
      ∧ StartsFollow x (some (pl.start + pl.foot)) rest

/-- Every two consecutive cuts lie at least the saw recovery distance apart (R106). -/
def CutsSpaced (recovery : Nat) (cuts : List Nat) : Prop :=
  ∀ (i a b : Nat), cuts[i]? = some a → cuts[i + 1]? = some b → a + recovery ≤ b

/-- R97: each posted defect is clamped to the strip, dropped if nothing is left of it, and expanded by M on both sides within the
strip, with its class and posted size kept; the list keeps the order posted, and holds at most 16 defects where at most 16 were
posted. R65, R99, R100: a placement is inadmissible when it overlaps a defect of a fatal class; else its grade is the best of A, B
and C whose limits, of count and size, every class of the overlapped defects meets, and it is inadmissible when none is met. -/
def Obligations.DefectsAndPlacementGrades : Prop :=
  (∀ x : Snapshot,
      normalised x = ((x.defects.filter fun q => decide (min q.start x.length < min q.stop x.length)).map fun q =>
          ⟨min q.start x.length - x.profile.clearance, min x.length (min q.stop x.length + x.profile.clearance), q.cls, q.size⟩)
      ∧ (∀ d ∈ normalised x, d.start < d.stop ∧ d.stop ≤ x.length)
      ∧ (x.defects.length ≤ 16 → (normalised x).length ≤ 16))
  ∧ (∀ (limits : List GradeLimit) (ds : List NormDefect),
      let met := fun g : Nat => ∀ k < 16, (ds.filter fun d => d.cls == k) ≠ [] →
        ((limitOf limits k g).count = 15 ∨ (ds.filter fun d => d.cls == k).length ≤ (limitOf limits k g).count)
          ∧ ((limitOf limits k g).size = 255 ∨ ∀ d ∈ ds, d.cls = k → d.size ≤ 10 * (limitOf limits k g).size)
      let dead := ∃ d ∈ ds, ∀ g < 3, (limitOf limits d.cls g).count = 0
      (gradeOf limits ds = some .A ↔ ¬ dead ∧ met 0)
      ∧ (gradeOf limits ds = some .B ↔ ¬ dead ∧ ¬ met 0 ∧ met 1)
      ∧ (gradeOf limits ds = some .C ↔ ¬ dead ∧ ¬ met 0 ∧ ¬ met 1 ∧ met 2)
      ∧ (gradeOf limits ds = none ↔ dead ∨ (¬ met 0 ∧ ¬ met 1 ∧ ¬ met 2)))

/-- R107: the chosen plan is the admissible plan of greatest plan value; of equal ones the plan with fewer pieces, then with the
larger sum of class lengths, then, at the first index at which two differ, the one with the earlier start, or at equal starts the
longer class. A strip shorter than the kerf takes the empty plan (R96, R108). -/
def Obligations.ChosenPlanIsBest : Prop :=
  ∀ x : Snapshot,
    let best := choosePlan x
    (x.length < x.profile.kerf → best = [])
    ∧ (x.profile.kerf ≤ x.length → best ∈ admissiblePlans x ∧ ∀ q ∈ admissiblePlans x,
      planValue q < planValue best
      ∨ (planValue q = planValue best ∧ best.length < q.length)
      ∨ (planValue q = planValue best ∧ q.length = best.length ∧ planLength q < planLength best)
      ∨ (planValue q = planValue best ∧ q.length = best.length ∧ planLength q = planLength best
        ∧ ((q.map fun a => (a.start, a.len)) = (best.map fun a => (a.start, a.len))
          ∨ ∃ (n : Nat) (a b : Place), best[n]? = some a ∧ q[n]? = some b
            ∧ ((q.take n).map fun c => (c.start, c.len)) = ((best.take n).map fun c => (c.start, c.len))
            ∧ (a.start < b.start ∨ (a.start = b.start ∧ b.len < a.len)))))

/-- R105, R106: the plans the planner weighs are exactly the admissible ones: at most eight places, each admissible by itself and
within the strip, with starts by R105 and every two consecutive cuts at least R_saw apart. R104, R105: a plan holds at most eight
pieces and its value never exceeds 32,760; none of its pieces overlaps the expanded interval of a defect of a fatal class. R105,
R106, R109: the cuts of an admissible plan are ascending, and each is the leading cut of a separated place, a kerf before it, or
the trailing cut of a place that ends short of the strip's end. -/
def Obligations.AdmissiblePlansAndTheirCuts : Prop :=
  (∀ (x : Snapshot) (q : List Place), q ∈ admissiblePlans x ↔
      q.length ≤ 8 ∧ (∀ pl ∈ q, IsPlace x pl) ∧ StartsFollow x none q
        ∧ CutsSpaced x.recovery (cutsOf x.profile.kerf x.length (spans q)))
  ∧ (∀ (x : Snapshot), (choosePlan x).length ≤ 8 ∧ planValue (choosePlan x) ≤ 32760
      ∧ ∀ pl ∈ choosePlan x, pl.start + pl.foot ≤ x.length
        ∧ ∀ d ∈ normalised x, fatal x.limits d.cls = true → pl.start + pl.foot ≤ d.start ∨ d.stop ≤ pl.start)
  ∧ (∀ (x : Snapshot) (q : List Place), q ∈ admissiblePlans x → 0 < x.profile.kerf →
      (cutsOf x.profile.kerf x.length (spans q)).Pairwise (· < ·)
      ∧ ∀ y : Nat, y ∈ cutsOf x.profile.kerf x.length (spans q) ↔
        (∃ pl ∈ q, y = pl.start + pl.foot ∧ y < x.length)
          ∨ ∃ pl ∈ q, y + x.profile.kerf = pl.start ∧ ∀ pr ∈ q, pl.start ≠ pr.start + pr.foot + x.profile.kerf)

/-- R109, R110: the places, the kerfs of the cuts and the waste of an admissible plan cover the strip without overlap: every position
lies in exactly one of them. The waste intervals are ascending, none empty, and none touches the next. -/
def Obligations.PlacesKerfsAndWasteCoverStrip : Prop :=
  ∀ (x : Snapshot) (q : List Place), q ∈ admissiblePlans x → 0 < x.profile.kerf →
    let places := (spans q).map fun a => (a.1, a.1 + a.2)
    let kerfs := (cutsOf x.profile.kerf x.length (spans q)).map fun c => (c, c + x.profile.kerf)
    let waste := wasteOf x.profile.kerf x.length (spans q)
    (∀ y < x.length, ((places ++ kerfs ++ waste).filter fun iv => decide (iv.1 ≤ y) && decide (y < iv.2)).length = 1)
    ∧ (∀ iv ∈ waste, iv.1 < iv.2 ∧ iv.2 ≤ x.length) ∧ waste.Pairwise (fun a b => a.2 < b.1)

/-! Labels and countable events. -/

/-- R194: the identification code of a label is the order number in five digits, the serial in four, the species and the grade number
(A 1, B 2, C 3) in one each, then the check 98 - ((N x 100) mod 97) in two; the code has 13 decimal digits and leaves the
remainder 1 on division by 97. -/
def Obligations.LabelCodeCarriesCheck : Prop :=
  ∀ (b : BayNo) (u : Bundle) (o : Order), u.order < 100000 → u.serial < 10000 → o.species < 10 → o.grade ≠ .W →
    let digits := (makeLabel b u o).digits
    let value := fun ds : List Nat => ds.foldl (fun n d => 10 * n + d) 0
    digits.length = 13 ∧ (∀ d ∈ digits, d < 10)
      ∧ value (digits.take 5) = u.order ∧ value ((digits.drop 5).take 4) = u.serial ∧ value ((digits.drop 9).take 1) = o.species
      ∧ (o.grade = .A → value ((digits.drop 10).take 1) = 1) ∧ (o.grade = .B → value ((digits.drop 10).take 1) = 2)
      ∧ (o.grade = .C → value ((digits.drop 10).take 1) = 3)
      ∧ value (digits.drop 11) = 98 - (value (digits.take 11) * 100) % 97
      ∧ value digits = value (digits.take 11) * 100 + (98 - (value (digits.take 11) * 100) % 97)
      ∧ value digits % 97 = 1

/-- R214: a countable event in PENDING raises its unreported count and restarts the delay timer at the notice delay in force, and
leaves the ceiling timer; in IDLE it starts both, the ceiling at 8 times the delay, unless the delay is 0, which reports it at
once. That a delay of 0 in PENDING leaves a timer of length 0, its expiry a step of its own, is the model's inference (log entry
29). R214: when the delay timer or the ceiling timer of PENDING runs out, CNTNTC reports the three unreported counts and the two
counters to the supervisor, and coalescing is IDLE; in IDLE neither timer runs, and that a timer's command then changes nothing is
the model's choice (log entry 2). -/
def Obligations.CountNoticesCoalesce : Prop :=
  (∀ (k : Countable) (p : Part),
      let one := fun x : Countable => if k = x then 1 else 0
      (∀ c : Coalesce, p.lif.coalesce = some c → countEvent k p = { p with
        lif.coalesce := some ⟨c.landed + one .landed, c.rejected + one .rejected, c.full + one .full, p.lif.delay, c.ceilingTimer⟩ })
      ∧ (p.lif.coalesce = none → p.lif.delay ≠ 0 → countEvent k p = { p with
        lif.coalesce := some ⟨one .landed, one .rejected, one .full, p.lif.delay, 8 * p.lif.delay⟩ })
      ∧ (p.lif.coalesce = none → p.lif.delay = 0 → (p.link 0).state = .up → (p.link 0).transmit.length < 56 →
        countEvent k p = p.setLink 0 { p.link 0 with transmit := (p.link 0).transmit ++ [⟨.notice, 0x87, 0,
          [.u32 (one .landed), .u32 (one .rejected), .u32 (one .full), .u32 p.rst.pieceRetired[0], .u32 p.rst.stripRetired[1]]⟩] }))
  ∧ (∀ c ∈ [Instr.cntntcDelayExpiry, Instr.cntntcCeilingExpiry], ∀ s : State, Running s.part → Settled s.part →
      (∀ k : Coalesce, s.part.lif.coalesce = some k → (s.part.link 0).state = .up → (s.part.link 0).transmit.length < 56 →
        Completes c s { s.part.setLink 0 { s.part.link 0 with
            transmit := (s.part.link 0).transmit ++ [⟨.notice, 0x87, 0, [.u32 k.landed, .u32 k.rejected, .u32 k.full,
              .u32 s.part.rst.pieceRetired[0], .u32 s.part.rst.stripRetired[1]]⟩] } with
          lif.coalesce := none })
      ∧ (s.part.lif.coalesce = none → Completes c s s.part))

/-! The laws of records and bundles. -/

/-- R2, R3, R13, R61: every command keeps the laws of the Record Store, in whatever state it is taken, damaged slots included: live
records and free list add up to 1024, no slot is both, none stands on the list twice; each context's reference count is the number
of live records bound to it; a record carries its slot's tag, and its shadow mirrors it. R163, R167 to R169: every command keeps
the laws of orders and bays: bundles retired ≤ opened ≤ ordered, and as many bays as their difference hold a bundle of the order.
Errors are marks (log entry 3). -/
def Obligations.RecordAndBundleLawsKeptByEveryStep : Prop :=
  (∀ s t : State, StoreLaws s.part → step s = .next t → StoreLaws t.part)
    ∧ ∀ s t : State, OrderLaws s.part → step s = .next t → OrderLaws t.part
end

