-- ==== Sys2Proof/Laws/State.lean ====
section
/-! SUPPORT. What each accessor of the part reads after each update of the part: one small lemma per field and update. -/

namespace Sys2Proof.Machine

open Sys2Proof

@[simp] theorem Part.setSlot_inReset (p : Part) (i : SlotNo) (x : Slot) : (p.setSlot i x).inReset = p.inReset := rfl
@[simp] theorem Part.setSlot_ztr (p : Part) (i : SlotNo) (x : Slot) : (p.setSlot i x).ztr = p.ztr := rfl
@[simp] theorem Part.setSlot_cpl (p : Part) (i : SlotNo) (x : Slot) : (p.setSlot i x).cpl = p.cpl := rfl
@[simp] theorem Part.setSlot_acu (p : Part) (i : SlotNo) (x : Slot) : (p.setSlot i x).acu = p.acu := rfl
@[simp] theorem Part.setSlot_ort (p : Part) (i : SlotNo) (x : Slot) : (p.setSlot i x).ort = p.ort := rfl
@[simp] theorem Part.setSlot_bas (p : Part) (i : SlotNo) (x : Slot) : (p.setSlot i x).bas = p.bas := rfl
@[simp] theorem Part.setSlot_lif (p : Part) (i : SlotNo) (x : Slot) : (p.setSlot i x).lif = p.lif := rfl

@[simp] theorem Part.slot_setSlot_same (p : Part) (i : SlotNo) (x : Slot) : (p.setSlot i x).slot i = x := by
  simp [Part.slot, Part.setSlot]

theorem Part.slot_setSlot_other (p : Part) (i j : SlotNo) (x : Slot) (h : i ≠ j) : (p.setSlot i x).slot j = p.slot j := by
  have h' : (i : Nat) ≠ j := fun e => h (Fin.ext e)
  simp [Part.slot, Part.setSlot, h']

@[simp] theorem Part.ctx_setSlot (p : Part) (i : SlotNo) (j : CtxNo) (x : Slot) : (p.setSlot i x).ctx j = p.ctx j := rfl
@[simp] theorem Part.order_setSlot (p : Part) (i : SlotNo) (j : OrderNo) (x : Slot) : (p.setSlot i x).order j = p.order j := rfl
@[simp] theorem Part.bay_setSlot (p : Part) (i : SlotNo) (j : BayNo) (x : Slot) : (p.setSlot i x).bay j = p.bay j := rfl
@[simp] theorem Part.link_setSlot (p : Part) (i : SlotNo) (j : LinkNo) (x : Slot) : (p.setSlot i x).link j = p.link j := rfl
@[simp] theorem Part.kickQueue_setSlot (p : Part) (i : SlotNo) (j : BayNo) (x : Slot) : (p.setSlot i x).kickQueue j = p.kickQueue j := rfl
@[simp] theorem Part.zone_setSlot (p : Part) (i : SlotNo) (z : Zone) (x : Slot) : (p.setSlot i x).zone z = p.zone z := by
  cases z <;> rfl
@[simp] theorem Part.queue_setSlot (p : Part) (i : SlotNo) (z : Zone) (x : Slot) : (p.setSlot i x).queue z = p.queue z := by
  cases z <;> rfl
@[simp] theorem Part.counter_setSlot (p : Part) (i : SlotNo) (z : Zone) (x : Slot) : (p.setSlot i x).counter z = p.counter z := by
  cases z <;> rfl

@[simp] theorem Part.setCtx_inReset (p : Part) (i : CtxNo) (x : Context) : (p.setCtx i x).inReset = p.inReset := rfl
@[simp] theorem Part.setCtx_rst (p : Part) (i : CtxNo) (x : Context) : (p.setCtx i x).rst = p.rst := rfl
@[simp] theorem Part.setCtx_ztr (p : Part) (i : CtxNo) (x : Context) : (p.setCtx i x).ztr = p.ztr := rfl
@[simp] theorem Part.setCtx_acu (p : Part) (i : CtxNo) (x : Context) : (p.setCtx i x).acu = p.acu := rfl
@[simp] theorem Part.setCtx_ort (p : Part) (i : CtxNo) (x : Context) : (p.setCtx i x).ort = p.ort := rfl
@[simp] theorem Part.setCtx_bas (p : Part) (i : CtxNo) (x : Context) : (p.setCtx i x).bas = p.bas := rfl
@[simp] theorem Part.setCtx_lif (p : Part) (i : CtxNo) (x : Context) : (p.setCtx i x).lif = p.lif := rfl

@[simp] theorem Part.ctx_setCtx_same (p : Part) (i : CtxNo) (x : Context) : (p.setCtx i x).ctx i = x := by
  simp [Part.ctx, Part.setCtx]

theorem Part.ctx_setCtx_other (p : Part) (i j : CtxNo) (x : Context) (h : i ≠ j) : (p.setCtx i x).ctx j = p.ctx j := by
  have h' : (i : Nat) ≠ j := fun e => h (Fin.ext e)
  simp [Part.ctx, Part.setCtx, h']

@[simp] theorem Part.slot_setCtx (p : Part) (i : CtxNo) (j : SlotNo) (x : Context) : (p.setCtx i x).slot j = p.slot j := rfl
@[simp] theorem Part.order_setCtx (p : Part) (i : CtxNo) (j : OrderNo) (x : Context) : (p.setCtx i x).order j = p.order j := rfl
@[simp] theorem Part.bay_setCtx (p : Part) (i : CtxNo) (j : BayNo) (x : Context) : (p.setCtx i x).bay j = p.bay j := rfl
@[simp] theorem Part.link_setCtx (p : Part) (i : CtxNo) (j : LinkNo) (x : Context) : (p.setCtx i x).link j = p.link j := rfl
@[simp] theorem Part.kickQueue_setCtx (p : Part) (i : CtxNo) (j : BayNo) (x : Context) : (p.setCtx i x).kickQueue j = p.kickQueue j := rfl
@[simp] theorem Part.zone_setCtx (p : Part) (i : CtxNo) (z : Zone) (x : Context) : (p.setCtx i x).zone z = p.zone z := by
  cases z <;> rfl
@[simp] theorem Part.queue_setCtx (p : Part) (i : CtxNo) (z : Zone) (x : Context) : (p.setCtx i x).queue z = p.queue z := by
  cases z <;> rfl
@[simp] theorem Part.counter_setCtx (p : Part) (i : CtxNo) (z : Zone) (x : Context) : (p.setCtx i x).counter z = p.counter z := by
  cases z <;> rfl

@[simp] theorem Part.setOrder_inReset (p : Part) (i : OrderNo) (x : Option Order) : (p.setOrder i x).inReset = p.inReset := rfl
@[simp] theorem Part.setOrder_rst (p : Part) (i : OrderNo) (x : Option Order) : (p.setOrder i x).rst = p.rst := rfl
@[simp] theorem Part.setOrder_ztr (p : Part) (i : OrderNo) (x : Option Order) : (p.setOrder i x).ztr = p.ztr := rfl
@[simp] theorem Part.setOrder_cpl (p : Part) (i : OrderNo) (x : Option Order) : (p.setOrder i x).cpl = p.cpl := rfl
@[simp] theorem Part.setOrder_acu (p : Part) (i : OrderNo) (x : Option Order) : (p.setOrder i x).acu = p.acu := rfl
@[simp] theorem Part.setOrder_bas (p : Part) (i : OrderNo) (x : Option Order) : (p.setOrder i x).bas = p.bas := rfl
@[simp] theorem Part.setOrder_lif (p : Part) (i : OrderNo) (x : Option Order) : (p.setOrder i x).lif = p.lif := rfl

@[simp] theorem Part.order_setOrder_same (p : Part) (i : OrderNo) (x : Option Order) : (p.setOrder i x).order i = x := by
  simp [Part.order, Part.setOrder]

theorem Part.order_setOrder_other (p : Part) (i j : OrderNo) (x : Option Order) (h : i ≠ j) : (p.setOrder i x).order j = p.order j := by
  have h' : (i : Nat) ≠ j := fun e => h (Fin.ext e)
  simp [Part.order, Part.setOrder, h']

@[simp] theorem Part.slot_setOrder (p : Part) (i : OrderNo) (j : SlotNo) (x : Option Order) : (p.setOrder i x).slot j = p.slot j := rfl
@[simp] theorem Part.ctx_setOrder (p : Part) (i : OrderNo) (j : CtxNo) (x : Option Order) : (p.setOrder i x).ctx j = p.ctx j := rfl
@[simp] theorem Part.bay_setOrder (p : Part) (i : OrderNo) (j : BayNo) (x : Option Order) : (p.setOrder i x).bay j = p.bay j := rfl
@[simp] theorem Part.link_setOrder (p : Part) (i : OrderNo) (j : LinkNo) (x : Option Order) : (p.setOrder i x).link j = p.link j := rfl
@[simp] theorem Part.kickQueue_setOrder (p : Part) (i : OrderNo) (j : BayNo) (x : Option Order) : (p.setOrder i x).kickQueue j = p.kickQueue j := rfl
@[simp] theorem Part.zone_setOrder (p : Part) (i : OrderNo) (z : Zone) (x : Option Order) : (p.setOrder i x).zone z = p.zone z := by
  cases z <;> rfl
@[simp] theorem Part.queue_setOrder (p : Part) (i : OrderNo) (z : Zone) (x : Option Order) : (p.setOrder i x).queue z = p.queue z := by
  cases z <;> rfl
@[simp] theorem Part.counter_setOrder (p : Part) (i : OrderNo) (z : Zone) (x : Option Order) : (p.setOrder i x).counter z = p.counter z := by
  cases z <;> rfl

@[simp] theorem Part.setBay_inReset (p : Part) (i : BayNo) (x : Bay) : (p.setBay i x).inReset = p.inReset := rfl
@[simp] theorem Part.setBay_rst (p : Part) (i : BayNo) (x : Bay) : (p.setBay i x).rst = p.rst := rfl
@[simp] theorem Part.setBay_ztr (p : Part) (i : BayNo) (x : Bay) : (p.setBay i x).ztr = p.ztr := rfl
@[simp] theorem Part.setBay_cpl (p : Part) (i : BayNo) (x : Bay) : (p.setBay i x).cpl = p.cpl := rfl
@[simp] theorem Part.setBay_acu (p : Part) (i : BayNo) (x : Bay) : (p.setBay i x).acu = p.acu := rfl
@[simp] theorem Part.setBay_ort (p : Part) (i : BayNo) (x : Bay) : (p.setBay i x).ort = p.ort := rfl
@[simp] theorem Part.setBay_lif (p : Part) (i : BayNo) (x : Bay) : (p.setBay i x).lif = p.lif := rfl

@[simp] theorem Part.bay_setBay_same (p : Part) (i : BayNo) (x : Bay) : (p.setBay i x).bay i = x := by
  simp [Part.bay, Part.setBay]

theorem Part.bay_setBay_other (p : Part) (i j : BayNo) (x : Bay) (h : i ≠ j) : (p.setBay i x).bay j = p.bay j := by
  have h' : (i : Nat) ≠ j := fun e => h (Fin.ext e)
  simp [Part.bay, Part.setBay, h']

@[simp] theorem Part.slot_setBay (p : Part) (i : BayNo) (j : SlotNo) (x : Bay) : (p.setBay i x).slot j = p.slot j := rfl
@[simp] theorem Part.ctx_setBay (p : Part) (i : BayNo) (j : CtxNo) (x : Bay) : (p.setBay i x).ctx j = p.ctx j := rfl
@[simp] theorem Part.order_setBay (p : Part) (i : BayNo) (j : OrderNo) (x : Bay) : (p.setBay i x).order j = p.order j := rfl
@[simp] theorem Part.link_setBay (p : Part) (i : BayNo) (j : LinkNo) (x : Bay) : (p.setBay i x).link j = p.link j := rfl
@[simp] theorem Part.kickQueue_setBay (p : Part) (i : BayNo) (j : BayNo) (x : Bay) : (p.setBay i x).kickQueue j = p.kickQueue j := rfl
@[simp] theorem Part.zone_setBay (p : Part) (i : BayNo) (z : Zone) (x : Bay) : (p.setBay i x).zone z = p.zone z := by
  cases z <;> rfl
@[simp] theorem Part.queue_setBay (p : Part) (i : BayNo) (z : Zone) (x : Bay) : (p.setBay i x).queue z = p.queue z := by
  cases z <;> rfl
@[simp] theorem Part.counter_setBay (p : Part) (i : BayNo) (z : Zone) (x : Bay) : (p.setBay i x).counter z = p.counter z := by
  cases z <;> rfl

@[simp] theorem Part.setLink_inReset (p : Part) (i : LinkNo) (x : LinkRec) : (p.setLink i x).inReset = p.inReset := rfl
@[simp] theorem Part.setLink_rst (p : Part) (i : LinkNo) (x : LinkRec) : (p.setLink i x).rst = p.rst := rfl
@[simp] theorem Part.setLink_ztr (p : Part) (i : LinkNo) (x : LinkRec) : (p.setLink i x).ztr = p.ztr := rfl
@[simp] theorem Part.setLink_cpl (p : Part) (i : LinkNo) (x : LinkRec) : (p.setLink i x).cpl = p.cpl := rfl
@[simp] theorem Part.setLink_acu (p : Part) (i : LinkNo) (x : LinkRec) : (p.setLink i x).acu = p.acu := rfl
@[simp] theorem Part.setLink_ort (p : Part) (i : LinkNo) (x : LinkRec) : (p.setLink i x).ort = p.ort := rfl
@[simp] theorem Part.setLink_bas (p : Part) (i : LinkNo) (x : LinkRec) : (p.setLink i x).bas = p.bas := rfl

@[simp] theorem Part.link_setLink_same (p : Part) (i : LinkNo) (x : LinkRec) : (p.setLink i x).link i = x := by
  simp [Part.link, Part.setLink]

theorem Part.link_setLink_other (p : Part) (i j : LinkNo) (x : LinkRec) (h : i ≠ j) : (p.setLink i x).link j = p.link j := by
  have h' : (i : Nat) ≠ j := fun e => h (Fin.ext e)
  simp [Part.link, Part.setLink, h']

@[simp] theorem Part.slot_setLink (p : Part) (i : LinkNo) (j : SlotNo) (x : LinkRec) : (p.setLink i x).slot j = p.slot j := rfl
@[simp] theorem Part.ctx_setLink (p : Part) (i : LinkNo) (j : CtxNo) (x : LinkRec) : (p.setLink i x).ctx j = p.ctx j := rfl
@[simp] theorem Part.order_setLink (p : Part) (i : LinkNo) (j : OrderNo) (x : LinkRec) : (p.setLink i x).order j = p.order j := rfl
@[simp] theorem Part.bay_setLink (p : Part) (i : LinkNo) (j : BayNo) (x : LinkRec) : (p.setLink i x).bay j = p.bay j := rfl
@[simp] theorem Part.kickQueue_setLink (p : Part) (i : LinkNo) (j : BayNo) (x : LinkRec) : (p.setLink i x).kickQueue j = p.kickQueue j := rfl
@[simp] theorem Part.zone_setLink (p : Part) (i : LinkNo) (z : Zone) (x : LinkRec) : (p.setLink i x).zone z = p.zone z := by
  cases z <;> rfl
@[simp] theorem Part.queue_setLink (p : Part) (i : LinkNo) (z : Zone) (x : LinkRec) : (p.setLink i x).queue z = p.queue z := by
  cases z <;> rfl
@[simp] theorem Part.counter_setLink (p : Part) (i : LinkNo) (z : Zone) (x : LinkRec) : (p.setLink i x).counter z = p.counter z := by
  cases z <;> rfl

@[simp] theorem Part.setKickQueue_inReset (p : Part) (i : BayNo) (x : List KickEntry) : (p.setKickQueue i x).inReset = p.inReset := rfl
@[simp] theorem Part.setKickQueue_rst (p : Part) (i : BayNo) (x : List KickEntry) : (p.setKickQueue i x).rst = p.rst := rfl
@[simp] theorem Part.setKickQueue_ztr (p : Part) (i : BayNo) (x : List KickEntry) : (p.setKickQueue i x).ztr = p.ztr := rfl
@[simp] theorem Part.setKickQueue_cpl (p : Part) (i : BayNo) (x : List KickEntry) : (p.setKickQueue i x).cpl = p.cpl := rfl
@[simp] theorem Part.setKickQueue_ort (p : Part) (i : BayNo) (x : List KickEntry) : (p.setKickQueue i x).ort = p.ort := rfl
@[simp] theorem Part.setKickQueue_bas (p : Part) (i : BayNo) (x : List KickEntry) : (p.setKickQueue i x).bas = p.bas := rfl
@[simp] theorem Part.setKickQueue_lif (p : Part) (i : BayNo) (x : List KickEntry) : (p.setKickQueue i x).lif = p.lif := rfl

@[simp] theorem Part.kickQueue_setKickQueue_same (p : Part) (i : BayNo) (x : List KickEntry) : (p.setKickQueue i x).kickQueue i = x := by
  simp [Part.kickQueue, Part.setKickQueue]

theorem Part.kickQueue_setKickQueue_other (p : Part) (i j : BayNo) (x : List KickEntry) (h : i ≠ j) : (p.setKickQueue i x).kickQueue j = p.kickQueue j := by
  have h' : (i : Nat) ≠ j := fun e => h (Fin.ext e)
  simp [Part.kickQueue, Part.setKickQueue, h']

@[simp] theorem Part.slot_setKickQueue (p : Part) (i : BayNo) (j : SlotNo) (x : List KickEntry) : (p.setKickQueue i x).slot j = p.slot j := rfl
@[simp] theorem Part.ctx_setKickQueue (p : Part) (i : BayNo) (j : CtxNo) (x : List KickEntry) : (p.setKickQueue i x).ctx j = p.ctx j := rfl
@[simp] theorem Part.order_setKickQueue (p : Part) (i : BayNo) (j : OrderNo) (x : List KickEntry) : (p.setKickQueue i x).order j = p.order j := rfl
@[simp] theorem Part.bay_setKickQueue (p : Part) (i : BayNo) (j : BayNo) (x : List KickEntry) : (p.setKickQueue i x).bay j = p.bay j := rfl
@[simp] theorem Part.link_setKickQueue (p : Part) (i : BayNo) (j : LinkNo) (x : List KickEntry) : (p.setKickQueue i x).link j = p.link j := rfl
@[simp] theorem Part.zone_setKickQueue (p : Part) (i : BayNo) (z : Zone) (x : List KickEntry) : (p.setKickQueue i x).zone z = p.zone z := by
  cases z <;> rfl
@[simp] theorem Part.queue_setKickQueue (p : Part) (i : BayNo) (z : Zone) (x : List KickEntry) : (p.setKickQueue i x).queue z = p.queue z := by
  cases z <;> rfl
@[simp] theorem Part.counter_setKickQueue (p : Part) (i : BayNo) (z : Zone) (x : List KickEntry) : (p.setKickQueue i x).counter z = p.counter z := by
  cases z <;> rfl

@[simp] theorem Part.setZone_inReset (p : Part) (z : Zone) (r : ZoneRec) : (p.setZone z r).inReset = p.inReset := by cases z <;> rfl
@[simp] theorem Part.setQueue_inReset (p : Part) (z : Zone) (q : List Entry) : (p.setQueue z q).inReset = p.inReset := by cases z <;> rfl
@[simp] theorem Part.setZone_rst (p : Part) (z : Zone) (r : ZoneRec) : (p.setZone z r).rst = p.rst := by cases z <;> rfl
@[simp] theorem Part.setQueue_rst (p : Part) (z : Zone) (q : List Entry) : (p.setQueue z q).rst = p.rst := by cases z <;> rfl
@[simp] theorem Part.setZone_cpl (p : Part) (z : Zone) (r : ZoneRec) : (p.setZone z r).cpl = p.cpl := by cases z <;> rfl
@[simp] theorem Part.setQueue_cpl (p : Part) (z : Zone) (q : List Entry) : (p.setQueue z q).cpl = p.cpl := by cases z <;> rfl
@[simp] theorem Part.setZone_acu (p : Part) (z : Zone) (r : ZoneRec) : (p.setZone z r).acu = p.acu := by cases z <;> rfl
@[simp] theorem Part.setQueue_acu (p : Part) (z : Zone) (q : List Entry) : (p.setQueue z q).acu = p.acu := by cases z <;> rfl
@[simp] theorem Part.setZone_ort (p : Part) (z : Zone) (r : ZoneRec) : (p.setZone z r).ort = p.ort := by cases z <;> rfl
@[simp] theorem Part.setQueue_ort (p : Part) (z : Zone) (q : List Entry) : (p.setQueue z q).ort = p.ort := by cases z <;> rfl
@[simp] theorem Part.setZone_bas (p : Part) (z : Zone) (r : ZoneRec) : (p.setZone z r).bas = p.bas := by cases z <;> rfl
@[simp] theorem Part.setQueue_bas (p : Part) (z : Zone) (q : List Entry) : (p.setQueue z q).bas = p.bas := by cases z <;> rfl
@[simp] theorem Part.setZone_lif (p : Part) (z : Zone) (r : ZoneRec) : (p.setZone z r).lif = p.lif := by cases z <;> rfl
@[simp] theorem Part.setQueue_lif (p : Part) (z : Zone) (q : List Entry) : (p.setQueue z q).lif = p.lif := by cases z <;> rfl
@[simp] theorem Part.setZone_ztr_cutList (p : Part) (z : Zone) (r : ZoneRec) : (p.setZone z r).ztr.cutList = p.ztr.cutList := by cases z <;> rfl
@[simp] theorem Part.setQueue_ztr_cutList (p : Part) (z : Zone) (q : List Entry) : (p.setQueue z q).ztr.cutList = p.ztr.cutList := by
  cases z <;> rfl
@[simp] theorem Part.setZone_ztr_eyeA (p : Part) (z : Zone) (r : ZoneRec) : (p.setZone z r).ztr.eyeA = p.ztr.eyeA := by cases z <;> rfl
@[simp] theorem Part.setQueue_ztr_eyeA (p : Part) (z : Zone) (q : List Entry) : (p.setQueue z q).ztr.eyeA = p.ztr.eyeA := by
  cases z <;> rfl
@[simp] theorem Part.setZone_ztr_eyeB (p : Part) (z : Zone) (r : ZoneRec) : (p.setZone z r).ztr.eyeB = p.ztr.eyeB := by cases z <;> rfl
@[simp] theorem Part.setQueue_ztr_eyeB (p : Part) (z : Zone) (q : List Entry) : (p.setQueue z q).ztr.eyeB = p.ztr.eyeB := by
  cases z <;> rfl
@[simp] theorem Part.setZone_ztr_eyeC (p : Part) (z : Zone) (r : ZoneRec) : (p.setZone z r).ztr.eyeC = p.ztr.eyeC := by cases z <;> rfl
@[simp] theorem Part.setQueue_ztr_eyeC (p : Part) (z : Zone) (q : List Entry) : (p.setQueue z q).ztr.eyeC = p.ztr.eyeC := by
  cases z <;> rfl
@[simp] theorem Part.setZone_ztr_eyeE (p : Part) (z : Zone) (r : ZoneRec) : (p.setZone z r).ztr.eyeE = p.ztr.eyeE := by cases z <;> rfl
@[simp] theorem Part.setQueue_ztr_eyeE (p : Part) (z : Zone) (q : List Entry) : (p.setQueue z q).ztr.eyeE = p.ztr.eyeE := by
  cases z <;> rfl
@[simp] theorem Part.setZone_ztr_eyeX (p : Part) (z : Zone) (r : ZoneRec) : (p.setZone z r).ztr.eyeX = p.ztr.eyeX := by cases z <;> rfl
@[simp] theorem Part.setQueue_ztr_eyeX (p : Part) (z : Zone) (q : List Entry) : (p.setQueue z q).ztr.eyeX = p.ztr.eyeX := by
  cases z <;> rfl
@[simp] theorem Part.setZone_ztr_load (p : Part) (z : Zone) (r : ZoneRec) : (p.setZone z r).ztr.load = p.ztr.load := by cases z <;> rfl
@[simp] theorem Part.setQueue_ztr_load (p : Part) (z : Zone) (q : List Entry) : (p.setQueue z q).ztr.load = p.ztr.load := by
  cases z <;> rfl
@[simp] theorem Part.setZone_ztr_itemA (p : Part) (z : Zone) (r : ZoneRec) : (p.setZone z r).ztr.itemA = p.ztr.itemA := by cases z <;> rfl
@[simp] theorem Part.setQueue_ztr_itemA (p : Part) (z : Zone) (q : List Entry) : (p.setQueue z q).ztr.itemA = p.ztr.itemA := by
  cases z <;> rfl
@[simp] theorem Part.setZone_ztr_itemB (p : Part) (z : Zone) (r : ZoneRec) : (p.setZone z r).ztr.itemB = p.ztr.itemB := by cases z <;> rfl
@[simp] theorem Part.setQueue_ztr_itemB (p : Part) (z : Zone) (q : List Entry) : (p.setQueue z q).ztr.itemB = p.ztr.itemB := by
  cases z <;> rfl
@[simp] theorem Part.setZone_ztr_geo (p : Part) (z : Zone) (r : ZoneRec) : (p.setZone z r).ztr.geo = p.ztr.geo := by cases z <;> rfl
@[simp] theorem Part.setQueue_ztr_geo (p : Part) (z : Zone) (q : List Entry) : (p.setQueue z q).ztr.geo = p.ztr.geo := by
  cases z <;> rfl
@[simp] theorem Part.setZone_ztr_geoValid (p : Part) (z : Zone) (r : ZoneRec) : (p.setZone z r).ztr.geoValid = p.ztr.geoValid := by cases z <;> rfl
@[simp] theorem Part.setQueue_ztr_geoValid (p : Part) (z : Zone) (q : List Entry) : (p.setQueue z q).ztr.geoValid = p.ztr.geoValid := by
  cases z <;> rfl
@[simp] theorem Part.setZone_ztr_fault (p : Part) (z : Zone) (r : ZoneRec) : (p.setZone z r).ztr.fault = p.ztr.fault := by cases z <;> rfl
@[simp] theorem Part.setQueue_ztr_fault (p : Part) (z : Zone) (q : List Entry) : (p.setQueue z q).ztr.fault = p.ztr.fault := by
  cases z <;> rfl
@[simp] theorem Part.setZone_ztr_untracked (p : Part) (z : Zone) (r : ZoneRec) : (p.setZone z r).ztr.untracked = p.ztr.untracked := by cases z <;> rfl
@[simp] theorem Part.setQueue_ztr_untracked (p : Part) (z : Zone) (q : List Entry) : (p.setQueue z q).ztr.untracked = p.ztr.untracked := by
  cases z <;> rfl
@[simp] theorem Part.setZone_ztr_stray (p : Part) (z : Zone) (r : ZoneRec) : (p.setZone z r).ztr.stray = p.ztr.stray := by cases z <;> rfl
@[simp] theorem Part.setQueue_ztr_stray (p : Part) (z : Zone) (q : List Entry) : (p.setQueue z q).ztr.stray = p.ztr.stray := by
  cases z <;> rfl
@[simp] theorem Part.setZone_ztr_compares (p : Part) (z : Zone) (r : ZoneRec) : (p.setZone z r).ztr.compares = p.ztr.compares := by cases z <;> rfl
@[simp] theorem Part.setQueue_ztr_compares (p : Part) (z : Zone) (q : List Entry) : (p.setQueue z q).ztr.compares = p.ztr.compares := by
  cases z <;> rfl
@[simp] theorem Part.setZone_ztr_due (p : Part) (z : Zone) (r : ZoneRec) : (p.setZone z r).ztr.due = p.ztr.due := by cases z <;> rfl
@[simp] theorem Part.setQueue_ztr_due (p : Part) (z : Zone) (q : List Entry) : (p.setQueue z q).ztr.due = p.ztr.due := by
  cases z <;> rfl
@[simp] theorem Part.setZone_ztr_atOnce (p : Part) (z : Zone) (r : ZoneRec) : (p.setZone z r).ztr.atOnce = p.ztr.atOnce := by cases z <;> rfl
@[simp] theorem Part.setQueue_ztr_atOnce (p : Part) (z : Zone) (q : List Entry) : (p.setQueue z q).ztr.atOnce = p.ztr.atOnce := by
  cases z <;> rfl

@[simp] theorem Part.zone_setZone_same (p : Part) (z : Zone) (r : ZoneRec) : (p.setZone z r).zone z = r := by cases z <;> rfl

theorem Part.zone_setZone_other (p : Part) (z w : Zone) (r : ZoneRec) (h : z ≠ w) : (p.setZone z r).zone w = p.zone w := by
  cases z <;> cases w <;> first | rfl | exact absurd rfl h

@[simp] theorem Part.queue_setQueue_same (p : Part) (z : Zone) (q : List Entry) : (p.setQueue z q).queue z = q := by
  cases z <;> rfl

theorem Part.queue_setQueue_other (p : Part) (z w : Zone) (q : List Entry) (h : z ≠ w) :
    (p.setQueue z q).queue w = p.queue w := by
  cases z <;> cases w <;> first | rfl | exact absurd rfl h

@[simp] theorem Part.counter_setQueue (p : Part) (z w : Zone) (q : List Entry) : (p.setQueue z q).counter w = p.counter w := by
  cases z <;> cases w <;> rfl

end Sys2Proof.Machine
end

