-- ==== Sys2Proof/Laws/Notices.lean ====
section
/-! SUPPORT. What composing notices and replies, re-evaluating PERMIT and answering refused requests leave unchanged: everything but the
links' lists and PERMIT's own fields; and no frame composed is lost by what follows it. -/

namespace Sys2Proof.Machine

open Sys2Proof

theorem SameLink.refl (x : LinkRec) : SameLink x x :=
  ⟨rfl, List.prefix_refl _, List.suffix_refl _, le_refl _⟩

theorem SameLink.trans {x y z : LinkRec} (h : SameLink x y) (k : SameLink y z) : SameLink x z := by
  obtain ⟨h1, h2, h3, h4⟩ := h
  obtain ⟨k1, k2, k3, k4⟩ := k
  refine ⟨?_, h2.trans k2, k3.trans h3, h4.trans k4⟩
  rw [k1, h1]

theorem SameLine.refl (p : Part) : SameLine p p := ⟨rfl, rfl, rfl, rfl, rfl, rfl, rfl⟩

theorem SameLine.trans {p q r : Part} (h : SameLine p q) (k : SameLine q r) : SameLine p r := by
  obtain ⟨h1, h2, h3, h4, h5, h6, h7⟩ := h
  obtain ⟨k1, k2, k3, k4, k5, k6, k7⟩ := k
  refine ⟨k1.trans h1, k2.trans h2, k3.trans h3, k4.trans h4, k5.trans h5, k6.trans h6, ?_⟩
  rw [k7, h7]

theorem SameLinks.refl (p : Part) : SameLinks p p := ⟨fun _ => SameLink.refl _, rfl⟩

theorem SameLinks.trans {p q r : Part} (h : SameLinks p q) (k : SameLinks q r) : SameLinks p r := by
  refine ⟨fun l => (h.1 l).trans (k.1 l), ?_⟩
  rw [k.2, h.2]

theorem After.refl (p : Part) : After p p := ⟨SameLine.refl p, SameLinks.refl p⟩

theorem After.trans {p q r : Part} (h : After p q) (k : After q r) : After p r := ⟨h.1.trans k.1, h.2.trans k.2⟩

/-- A list folded by steps that add frames only, adds frames only. -/
theorem After.foldl {α : Type} (f : Part → α → Part) (h : ∀ p a, After p (f p a)) (xs : List α) (p : Part) :
    After p (xs.foldl f p) := by
  induction xs generalizing p with
  | nil => exact After.refl p
  | cons x xs ih => exact (h p x).trans (ih (f p x))

/-- A frame that stands in a transmit list still stands there after what follows a command. -/
theorem After.mem {p q : Part} (h : After p q) {l : LinkNo} {f : Frame} (m : f ∈ (p.link l).transmit) :
    f ∈ (q.link l).transmit := (h.2.1 l).2.1.subset m

/-- A link replaced by the same link with frames added or requests taken from its head. -/
theorem after_setLink (p : Part) (l : LinkNo) (x : LinkRec) (h : SameLink (p.link l) x) : After p (p.setLink l x) := by
  refine ⟨⟨rfl, rfl, rfl, rfl, rfl, rfl, rfl⟩, ?_, rfl⟩
  intro k
  by_cases e : l = k
  · subst e; rw [Part.link_setLink_same]; exact h
  · rw [Part.link_setLink_other _ _ _ _ e]; exact SameLink.refl _

theorem le_bump (n : Nat) : n ≤ bump n := by unfold bump; split <;> omega

theorem transmit_after (l : LinkNo) (f : Frame) (p : Part) : After p (transmit l f p) :=
  after_setLink p l _ ⟨rfl, List.prefix_append _ _, List.suffix_refl _, le_refl _⟩

theorem transmit_mem (l : LinkNo) (f : Frame) (p : Part) : f ∈ ((transmit l f p).link l).transmit := by
  simp [transmit]

theorem sendNotice_after (l : LinkNo) (c : Nat) (fs : List Item) (p : Part) : After p (sendNotice l c fs p) := by
  unfold sendNotice
  dsimp only
  split
  · exact after_setLink p l _ ⟨rfl, List.prefix_refl _, List.suffix_refl _, le_bump _⟩
  · exact transmit_after _ _ _

theorem compose_after (n : Notice) (p : Part) : After p (compose n p) := by
  unfold compose
  split
  · exact After.refl p
  · exact sendNotice_after _ _ _ _

theorem composeAll_after (ns : List Notice) (p : Part) : After p (composeAll ns p) :=
  After.foldl _ (fun p n => compose_after n p) ns p

/-- Only the deferred notices change. -/
theorem after_deferred (p : Part) (d : Option (List Notice)) : After p { p with lif.deferred := d } :=
  ⟨⟨rfl, rfl, rfl, rfl, rfl, rfl, rfl⟩, fun _ => SameLink.refl _, rfl⟩

theorem raise_after (n : Notice) (p : Part) : After p (raise n p) := by
  unfold raise
  split
  · exact compose_after n p
  · exact after_deferred p _

/-- Only runnability, report and PERMIT change. -/
theorem after_permit (p : Part) (a : Bool) (b : List PermitCond) (c : Bool) :
    After p { p with cpl.runnable := a, cpl.report := b, cpl.permit := c } :=
  ⟨⟨rfl, rfl, rfl, rfl, rfl, rfl, rfl⟩, fun _ => SameLink.refl _, rfl⟩

theorem reevaluate_after (b : Bool) (p : Part) : After p (reevaluate b p) := by
  unfold reevaluate
  dsimp only
  split
  · exact (after_permit p _ _ _).trans (raise_after _ _)
  · exact after_permit p _ _ _

theorem composeReply_after (l : LinkNo) (c n : Nat) (r : Reply) (p : Part) : After p (composeReply l c n r p) :=
  transmit_after _ _ _

theorem composeReply_mem (l : LinkNo) (c n : Nat) (r : Reply) (p : Part) : Answered l c n r (composeReply l c n r p) :=
  transmit_mem _ _ _

theorem popRequest_after (l : LinkNo) (p : Part) : After p (popRequest l p) :=
  after_setLink p l _ ⟨rfl, List.prefix_refl _, List.drop_suffix _ _, le_refl _⟩

theorem answerHeads_after (l : LinkNo) (n : Nat) (p : Part) : After p (answerHeads l n p) := by
  induction n generalizing p with
  | zero => exact After.refl p
  | succ n ih =>
    unfold answerHeads
    split
    · exact After.refl p
    · split
      · exact After.refl p
      · split
        · exact ((popRequest_after l p).trans (composeReply_after _ _ _ _ _)).trans (ih _)
        · exact After.refl p

theorem answerAll_after (p : Part) : After p (answerAll p) := After.foldl _ (fun p l => answerHeads_after l _ p) _ p

theorem flushDeferred_after (p : Part) : After p (flushDeferred p) := (after_deferred p none).trans (composeAll_after _ _)

/-! Which notice waits for a reply, and whether one does. -/

theorem compose_deferred (n : Notice) (p : Part) : (compose n p).lif.deferred = p.lif.deferred := by
  unfold compose sendNotice transmit Part.setLink
  split
  · rfl
  · dsimp only; split <;> rfl

theorem composeAll_deferred (ns : List Notice) (p : Part) : (composeAll ns p).lif.deferred = p.lif.deferred := by
  induction ns generalizing p with
  | nil => rfl
  | cons n ns ih => exact (ih (compose n p)).trans (compose_deferred n p)

theorem flushDeferred_deferred (p : Part) : (flushDeferred p).lif.deferred = none := by
  unfold flushDeferred
  rw [composeAll_deferred]

theorem answerHeads_deferred (l : LinkNo) (n : Nat) (p : Part) : (answerHeads l n p).lif.deferred = p.lif.deferred := by
  induction n generalizing p with
  | zero => rfl
  | succ n ih =>
    unfold answerHeads
    split
    · rfl
    · split
      · rfl
      · split
        · rw [ih]; rfl
        · rfl

theorem answerAll_deferred (p : Part) : (answerAll p).lif.deferred = p.lif.deferred := by
  unfold answerAll
  induction List.finRange 7 generalizing p with
  | nil => rfl
  | cons l ls ih => exact (ih _).trans (answerHeads_deferred l _ p)

theorem raise_deferred_none (n : Notice) (p : Part) (h : p.lif.deferred = none) : (raise n p).lif.deferred = none := by
  unfold raise
  rw [h]
  exact (compose_deferred n p).trans h

theorem reevaluate_deferred_none (b : Bool) (p : Part) (h : p.lif.deferred = none) :
    (reevaluate b p).lif.deferred = none := by
  unfold reevaluate
  dsimp only
  split
  · exact raise_deferred_none _ _ h
  · exact h

end Sys2Proof.Machine
end

