-- ==== Sys2Proof/Laws/Finish.lean ====
section
/-! SUPPORT. What the end of every command does, and what a request taken at once comes to. A statement about a command cites these and
speaks of the command's own change alone. -/

namespace Sys2Proof.Machine

open Sys2Proof

theorem settle_idle (n : Nat) (p : Part) (h : p.ztr.atOnce = []) : settle n p = p := by
  cases n with
  | zero => rfl
  | succ n => simp [settle, h]

theorem settleAll_idle (p : Part) (h : p.ztr.atOnce = []) : settleAll p = p := by
  unfold settleAll
  rw [settle_idle _ _ h]
  dsimp only
  rw [h, List.append_nil]
  cases p with
  | mk a b z c d e f g =>
    cases z
    simp_all

/-- With no compare left to carry out, a command's end only adds frames and re-evaluates PERMIT. -/
theorem finish_after (p : Part) (h : p.ztr.atOnce = []) : After p (finish p) := by
  unfold finish
  rw [settleAll_idle p h]
  exact ((flushDeferred_after p).trans (answerAll_after _)).trans (reevaluate_after _ _)

/-- A command run on a part that runs, whose change leaves no compare to carry out. -/
theorem run_after (f : Part → Part) (p : Part) (r : Running p) (h : (f p).ztr.atOnce = []) : After (f p) (run f p) := by
  have e : run f p = finish (f p) := by
    simp only [run]
    exact if_neg (by rw [show p.inReset = false from r]; exact Bool.false_ne_true)
  rw [e]
  exact finish_after (f p) h

/-- While the reset input is asserted a command that runs by `run` changes nothing. -/
theorem run_inReset (f : Part → Part) (p : Part) (h : p.inReset = true) : run f p = p := by
  simp only [run]
  exact if_pos h

/-- The outcome of a command that runs by `run`. -/
theorem next_run_completes (c : Instr) (f : Part → Part) (s : State) (hc : exec c s = next (run f) s) (r : Running s.part)
    (h : (f s.part).ztr.atOnce = []) : Completes c s (f s.part) :=
  ⟨_, hc, rfl, run_after f s.part r h⟩

/-- A request that is taken at once: its block's answer on the part with the notices that follow the reply held back, then the reply. -/
theorem takeRequest_taken (l : LinkNo) (code number : Nat) (i : Instr) (body : Part → Reply × Part) (p : Part)
    (h : Takes l code p) :
    takeRequest l code number i body p =
      composeReply l code number (body { p with lif.deferred := some [] }).1
        (reevaluate false (body { p with lif.deferred := some [] }).2) := by
  obtain ⟨h1, h2, h3, h4⟩ := h
  have a : arrival l (.request i) p = .fresh := by simp [arrival, h1, h2, h3]
  simp only [takeRequest, a, serve, h4]

/-- What a request that is taken at once comes to: its reply stands in the transmit list, and the part is as its block left it but for
what follows every command. -/
theorem request_replies (c : Instr) (l : LinkNo) (code number : Nat) (body : Part → Reply × Part) (s : State)
    (r : Reply) (e : Part) (hc : exec c s = next (run (takeRequest l code number c body)) s) (run_ : Running s.part)
    (h : Takes l code s.part) (hb : body { s.part with lif.deferred := some [] } = (r, e)) (he : e.ztr.atOnce = []) :
    Replies c l code number s r e := by
  have ht := takeRequest_taken l code number c body s.part h
  rw [hb] at ht
  have h1 : After e (takeRequest l code number c body s.part) := by
    rw [ht]
    exact (reevaluate_after false e).trans (composeReply_after _ _ _ _ _)
  have hz : (takeRequest l code number c body s.part).ztr.atOnce = [] := by rw [h1.1.2.2.1]; exact he
  have h2 := run_after _ s.part run_ hz
  refine ⟨_, hc, rfl, h2.mem ?_, h1.trans h2⟩
  rw [ht]
  exact composeReply_mem _ _ _ _ _

end Sys2Proof.Machine
end

