-- ==== Sys2Proof/Laws/Store.lean ====
section
/-! SUPPORT. What the Record Store's operations come to on a clean slot: a read proceeds without trace, a tag check finds the record, an
allocation and a retirement do what R3 and R5 list. -/

namespace Sys2Proof.Machine

open Sys2Proof

theorem slot_congr {p q : Part} (h : q.rst = p.rst) (i : SlotNo) : q.slot i = p.slot i := by unfold Part.slot; rw [h]

/-- A record held in a clean slot is held by every part with the same Record Store. -/
theorem HoldsStrip.congr {s : Strip} {p q : Part} (h : q.rst = p.rst) (k : HoldsStrip s p) : HoldsStrip s q := by
  simpa only [HoldsStrip, CleanSlot, slot_congr h] using k

theorem HoldsPiece.congr {x : Piece} {p q : Part} (h : q.rst = p.rst) (k : HoldsPiece x p) : HoldsPiece x q := by
  simpa only [HoldsPiece, CleanSlot, slot_congr h] using k

theorem finding_clean {i : SlotNo} {p : Part} (h : CleanSlot i p) : finding (p.slot i) = .readable := by
  simp [finding, h.1]

theorem repair_clean {i : SlotNo} {p : Part} (r : Reader) (h : CleanSlot i p) : repair i r p = p := by
  simp [repair, h.1, h.2.1]

theorem readSlot_clean {i : SlotNo} {p : Part} (r : Reader) (h : CleanSlot i p) : readSlot i r p = (.ok, p) := by
  simp [readSlot, finding_clean h, repair_clean r h]

theorem recordAt_strip {s : Strip} {p : Part} (h : HoldsStrip s p) : recordAt s.tag p = .strip s := by
  simp [recordAt, h.2.1, h.2.2]

theorem recordAt_piece {x : Piece} {p : Part} (h : HoldsPiece x p) : recordAt x.tag p = .piece x := by
  simp [recordAt, h.2.1, h.2.2]

/-- The tag check of a strip held in a clean slot (R6). -/
theorem lookup_strip {s : Strip} {p : Part} (r : Reader) (h : HoldsStrip s p) : lookup s.tag r p = (.strip s, p) := by
  simp [lookup, readSlot_clean r h.1, recordAt_strip h]

/-- The tag check of a piece held in a clean slot (R6). -/
theorem lookup_piece {x : Piece} {p : Part} (r : Reader) (h : HoldsPiece x p) : lookup x.tag r p = (.piece x, p) := by
  simp [lookup, readSlot_clean r h.1, recordAt_piece h]

/-- The tag check of a free slot, or of a live one at another generation (R6). -/
theorem lookup_stale {tag : Nat} {p : Part} (r : Reader) (h : CleanSlot (slotOf tag) p)
    (k : (p.slot (slotOf tag)).gen ≠ genOf tag ∨ (p.slot (slotOf tag)).contents = .nothing) :
    lookup tag r p = (.stale, p) := by
  have e : recordAt tag p = .nothing := by
    unfold recordAt
    split
    · rename_i g; rcases k with k | k
      · exact absurd g k
      · exact k
    · rfl
  simp [lookup, readSlot_clean r h, e]

theorem shadowView_clean {i : SlotNo} {p : Part} (h : CleanSlot i p) : shadowView (p.slot i) = shadowOf (p.slot i).contents := by
  simp [shadowView, h.2.1, h.2.2]

theorem genView_clean {i : SlotNo} {p : Part} (h : CleanSlot i p) : genView (p.slot i) = (p.slot i).gen := by
  simp [genView, h.1]

/-- A single allocation takes the free list's head, advances the slot's generation, and raises the context's reference count (R3). -/
theorem allocate_cons (c : CtxNo) (mk : Nat → Contents) {p : Part} {i : SlotNo} {rest : List SlotNo} (h : p.rst.free = i :: rest) :
    allocate c mk p = some (tagOf (nextGen (p.slot i).gen) i,
      changeRefs (· + 1) c (({ p with rst.free := rest } : Part).setSlot i
        (rewritten (nextGen (p.slot i).gen) (mk (tagOf (nextGen (p.slot i).gen) i))))) := by
  simp [allocate, h]

/-- A slot's tag, from a record held in it. -/
theorem tagOf_slotOf (t : Nat) : tagOf (genOf t) (slotOf t) = t := by
  simp only [tagOf, genOf, slotOf, Fin.ofNat]
  omega

/-- Retiring a strip held in a clean slot: clean rewrite, free list's tail, counter of the cause, reference released, eye items that
named it gone (R5, R38). -/
theorem retireSlot_strip {s : Strip} {p : Part} (cause : StripRetire) (h : HoldsStrip s p) :
    retireSlot (slotOf s.tag) (.strip cause) p =
      { changeRefs (· - 1) s.ctx (countRetire (.strip cause) (p.setSlot (slotOf s.tag) (rewritten (genOf s.tag) .nothing))) with
        rst.free := p.rst.free ++ [slotOf s.tag]
        ztr.itemA := dropItem s.tag p.ztr.itemA
        ztr.itemB := dropItem s.tag p.ztr.itemB } := by
  simp only [retireSlot, shadowView_clean h.1, h.2.2, shadowOf, shadowCtx, genView_clean h.1, h.2.1, tagOf_slotOf]
  rfl

/-- Retiring a piece held in a clean slot (R5). -/
theorem retireSlot_piece {x : Piece} {p : Part} (cause : PieceRetire) (h : HoldsPiece x p) :
    retireSlot (slotOf x.tag) (.piece cause) p =
      { changeRefs (· - 1) x.ctx (countRetire (.piece cause) (p.setSlot (slotOf x.tag) (rewritten (genOf x.tag) .nothing))) with
        rst.free := p.rst.free ++ [slotOf x.tag]
        ztr.itemA := dropItem x.tag p.ztr.itemA
        ztr.itemB := dropItem x.tag p.ztr.itemB } := by
  simp only [retireSlot, shadowView_clean h.1, h.2.2, shadowOf, shadowCtx, genView_clean h.1, h.2.1, tagOf_slotOf]
  rfl

/-- A retirement only re-evaluates PERMIT beyond the slot's own retirement (R71). -/
theorem retire_after (i : SlotNo) (c : Retire) (p : Part) : After (retireSlot i c p) (retire i c p) := reevaluate_after _ _

/-- What one step of `After` is made of: the links' lists, and PERMIT's own fields. -/
theorem After.shape {p q : Part} (h : After p q) :
    ∃ (x : Vector LinkRec 7) (d : Option (List Notice)) (a : Bool) (b : List PermitCond) (c : Bool),
      q = { p with
        lif.link := x
        lif.deferred := d
        cpl.runnable := a
        cpl.report := b
        cpl.permit := c } := by
  obtain ⟨⟨h1, h2, h3, h4, h5, h6, h7⟩, -, h9⟩ := h
  refine ⟨q.lif.link, q.lif.deferred, q.cpl.runnable, q.cpl.report, q.cpl.permit, ?_⟩
  cases q
  cases p
  simp only [Part.mk.injEq] at *
  exact ⟨h1, h2, h3, h7, h4, h5, h6, h9⟩

end Sys2Proof.Machine
end

