-- ==== Sys2Proof/Laws/Tracker.lean ====
section
/-! SUPPORT. What the tracker's operations come to: an armed compare that is strictly ahead is kept, entries join and leave, and none of
them reaches another block. -/

namespace Sys2Proof.Machine

open Sys2Proof

/-! Counter arithmetic, in numerals (0.5.1, R32, R33). -/

theorem modulus_linear (z : LinearZone) : modulus z.zone = 16777216 := by cases z <;> rfl

theorem wrap_linear (z : LinearZone) (n : Nat) : wrap z.zone n = n % 16777216 := by rw [wrap, modulus_linear]

theorem minus_linear (z : LinearZone) (a b : Nat) : minus z.zone a b = (a + (16777216 - b % 16777216)) % 16777216 := by
  rw [minus, modulus_linear]

theorem wrap_A (n : Nat) : wrap .A n = n % 16777216 := wrap_linear .A n
theorem wrap_B (n : Nat) : wrap .B n = n % 16777216 := wrap_linear .B n
theorem wrap_C (n : Nat) : wrap .C n = n % 16777216 := wrap_linear .C n
theorem wrap_E (n : Nat) : wrap .E n = n % 16777216 := wrap_linear .E n
theorem wrap_D (n : Nat) : wrap .D n = n % 65536 := rfl
theorem minus_A (a b : Nat) : minus .A a b = (a + (16777216 - b % 16777216)) % 16777216 := minus_linear .A a b
theorem minus_B (a b : Nat) : minus .B a b = (a + (16777216 - b % 16777216)) % 16777216 := minus_linear .B a b
theorem minus_C (a b : Nat) : minus .C a b = (a + (16777216 - b % 16777216)) % 16777216 := minus_linear .C a b
theorem minus_E (a b : Nat) : minus .E a b = (a + (16777216 - b % 16777216)) % 16777216 := minus_linear .E a b

/-! Compares (R36). -/

/-- Arming changes compares and the compares taken at once, and nothing else. -/
theorem arm_shape (e : Event) (t : Nat) (p : Part) :
    ∃ cs os, arm e t p = { p with ztr.compares := cs, ztr.atOnce := os } := by
  unfold arm
  split
  · exact ⟨_, _, rfl⟩
  · exact ⟨_, _, rfl⟩

/-- A compare whose target is strictly ahead when it is armed is kept (R36). -/
theorem arm_ahead {e : Event} {t : Nat} {p : Part} (h : strictlyAhead (eventZone e) t (p.counter (eventZone e)) = true) :
    arm e t p = { p with ztr.compares := p.ztr.compares ++ [⟨e, t⟩] } := if_pos h

/-- A compare whose target is not strictly ahead when it is armed is taken at once (R36). -/
theorem arm_notAhead {e : Event} {t : Nat} {p : Part} (h : strictlyAhead (eventZone e) t (p.counter (eventZone e)) = false) :
    arm e t p = { p with ztr.atOnce := p.ztr.atOnce ++ [e] } := if_neg (by rw [h]; exact Bool.false_ne_true)

@[simp] theorem arm_rst (e : Event) (t : Nat) (p : Part) : (arm e t p).rst = p.rst := by obtain ⟨_, _, h⟩ := arm_shape e t p; rw [h]
@[simp] theorem cancel_rst (e : Event) (p : Part) : (cancel e p).rst = p.rst := rfl

/-- A target at a distance of 1 to under half the modulus lies strictly ahead (0.5.1, R36). -/
theorem strictlyAhead_linear {z : Zone} (hz : z ≠ .D) {n d : Nat} (hd : 1 ≤ d) (h : d < 8388608) :
    strictlyAhead z ((n + d) % 16777216) n = true := by
  have k : modulus z = 16777216 := by cases z <;> first | rfl | exact absurd rfl hz
  have e : ahead z ((n + d) % 16777216) n = d := by unfold ahead minus; rw [k]; omega
  have m : halfModulus z = 8388608 := by unfold halfModulus; rw [k]
  simp [strictlyAhead, e, m, hd, h]

/-- The same for the lug numbers of zone D (R33). -/
theorem strictlyAhead_lug {n d : Nat} (hd : 1 ≤ d) (h : d < 32768) : strictlyAhead .D ((n + d) % 65536) n = true := by
  have e : ahead .D ((n + d) % 65536) n = d := by
    unfold ahead minus
    rw [show modulus .D = 65536 from rfl]
    omega
  have m : halfModulus .D = 32768 := rfl
  simp [strictlyAhead, e, m, hd, h]

/-! Queues (R39, R44). -/

theorem zone_setZone_same (p : Part) (z : Zone) (r : ZoneRec) : (p.setZone z r).zone z = r := by cases z <;> rfl

theorem zone_setZone_other {z y : Zone} (h : z ≠ y) (p : Part) (r : ZoneRec) : (p.setZone z r).zone y = p.zone y := by
  cases z <;> cases y <;> first | rfl | exact absurd rfl h

@[simp] theorem queue_setQueue_same (p : Part) (z : Zone) (q : List Entry) : (p.setQueue z q).queue z = q := by cases z <;> rfl

theorem queue_setQueue_other {z y : Zone} (h : z ≠ y) (p : Part) (q : List Entry) : (p.setQueue z q).queue y = p.queue y := by
  cases z <;> cases y <;> first | rfl | exact absurd rfl h

@[simp] theorem counter_setQueue (p : Part) (z y : Zone) (q : List Entry) : (p.setQueue z q).counter y = p.counter y := by
  cases z <;> cases y <;> rfl

/-- An entry that joins an empty queue is its head, and its expiry is armed (R44). -/
theorem joinTail_empty {z : Zone} {e : Entry} {p : Part} (h : p.queue z = []) :
    joinTail z e p = arm (.expiry z) (wrap z (e.expect + e.half)) (p.setQueue z [e]) := by
  unfold joinTail
  rw [h]
  simp [armHead]

/-- An entry that joins entries already queued stands at the tail (R39). -/
theorem joinTail_behind {z : Zone} {e x : Entry} {xs : List Entry} {p : Part} (h : p.queue z = x :: xs) :
    joinTail z e p = p.setQueue z (x :: xs ++ [e]) := by
  unfold joinTail
  rw [h]

/-- The only entry of a queue leaves it, its expiry and its own compare with it (R44). -/
theorem popHead_only {z : Zone} {e : Entry} {p : Part} (h : p.queue z = [e]) :
    popHead z p = cancel (.expiry z) (entryGone z e (p.setQueue z [])) := by
  unfold popHead
  rw [h]
  have k : (cancel (.expiry z) (entryGone z e (p.setQueue z []))).queue z = [] := by
    cases z
    · rfl
    · rfl
    · rfl
    · rfl
    · unfold entryGone; dsimp only; split <;> rfl
  simp [armHead, k]

/-- The head matches when the upstream counter stands within its window (R45). -/
theorem matchedHead_hit {z : Zone} {e : Entry} {es : List Entry} {p : Part} (h : p.queue z = e :: es)
    (k : inWindow z (p.counter z) e.expect e.half = true) : matchedHead z p = some e := by
  unfold matchedHead
  rw [h]
  simp [k]

theorem matchedHead_empty {z : Zone} {p : Part} (h : p.queue z = []) : matchedHead z p = none := by
  unfold matchedHead
  rw [h]

theorem admission_empty {z : Zone} {pos : Nat} {p : Part} (h : p.queue z = []) : admission z pos p = .join := by
  unfold admission
  rw [h]
  rfl

@[simp] theorem joinTail_rst (z : Zone) (e : Entry) (p : Part) : (joinTail z e p).rst = p.rst := by
  cases h : p.queue z with
  | nil => rw [joinTail_empty h]; simp
  | cons x xs => rw [joinTail_behind h]; simp

theorem entryGone_rst (z : Zone) (e : Entry) (p : Part) : (entryGone z e p).rst = p.rst := by
  unfold entryGone
  split <;> first | rfl | (split <;> rfl)

@[simp] theorem popHead_rst (z : Zone) (p : Part) : (popHead z p).rst = p.rst := by
  unfold popHead
  split
  · rfl
  · unfold armHead
    split
    · simp [entryGone_rst]
    · simp [entryGone_rst]

/-- Removing a tag that stands in no entry changes nothing (R39). -/
theorem removeTag_absent {z : Zone} {tag : Nat} {p : Part} (h : ∀ e ∈ p.queue z, e.tag ≠ some tag) : removeTag z tag p = p := by
  unfold removeTag
  split
  · rfl
  · rename_i e rest k
    have h1 : e.tag ≠ some tag := h e (by rw [k]; exact List.mem_cons_self)
    have h2 : rest.find? (fun x => x.tag == some tag) = none := by
      rw [List.find?_eq_none]
      intro x hx
      simpa using h x (by rw [k]; exact List.mem_cons_of_mem _ hx)
    simp [h1, h2]

end Sys2Proof.Machine
end

