-- ==== Sys2Proof/Laws/Line.lean ====
section
/-! SUPPORT. What the laws of records and bundles speak of: they rest on a few blocks alone, so what follows a command keeps them; and what
the shared operations of a LINE CLEAR, an opening, a marking, a joined waste interval, an entry's place in forward order and a pause come to. -/

namespace Sys2Proof.Machine

open Sys2Proof

/-- The laws of the Record Store speak of the store and the contexts only. -/
theorem StoreLaws.congr {p q : Part} (h : q.rst = p.rst) (k : q.cpl.contexts = p.cpl.contexts) (w : StoreLaws p) : StoreLaws q := by
  have s := slot_congr h
  have c : ∀ x : CtxNo, q.ctx x = p.ctx x := fun x => by unfold Part.ctx; rw [k]
  constructor <;> simp only [s, c, h]
  exacts [w.shadows, w.tags, w.freeOnce, w.freeSlots, w.total, w.references]

/-- The laws of orders and bays speak of the Order Table and the bays only. -/
theorem OrderLaws.congr {p q : Part} (h : q.ort = p.ort) (k : q.bas = p.bas) (w : OrderLaws p) : OrderLaws q := by
  have o : ∀ x : OrderNo, q.order x = p.order x := fun x => by unfold Part.order; rw [h]
  have b : ∀ x : BayNo, q.bay x = p.bay x := fun x => by unfold Part.bay; rw [k]
  have s : ∀ x : OrderNo, baysOf x q = baysOf x p := fun x => by unfold baysOf; simp only [b]
  constructor <;> simp only [o, b, s]
  exacts [w.counts, w.emptySlots, w.idle, w.cancelled, w.complete]

/-- What follows every command keeps the laws of the Record Store. -/
theorem After.storeLaws {p q : Part} (h : After p q) (w : StoreLaws p) : StoreLaws q := by
  obtain ⟨x, d, a, b, c, e⟩ := h.shape
  exact w.congr (by rw [e]) (by rw [e])

/-- What follows every command keeps the laws of orders and bays. -/
theorem After.orderLaws {p q : Part} (h : After p q) (w : OrderLaws p) : OrderLaws q := by
  obtain ⟨x, d, a, b, c, e⟩ := h.shape
  exact w.congr (by rw [e]) (by rw [e])

/-- A store without records meets its laws, whatever the marks of its slots (R2, R61). -/
theorem StoreLaws.empty {p : Part} (c : ∀ i : SlotNo, (p.slot i).contents = .nothing)
    (w : ∀ i : SlotNo, (p.slot i).shadow = ⟨(p.slot i).gen, .nothing⟩) (f : p.rst.free.Perm (List.finRange 1024))
    (r : ∀ x : CtxNo, (p.ctx x).refs = 0) : StoreLaws p where
  shadows i := by simp [c i, w i, shadowOf]
  tags i t h := by simp [c i, recordTag] at h
  freeOnce := f.nodup_iff.mpr (List.nodup_finRange 1024)
  freeSlots i := by simp [f.mem_iff, c i]
  total := by simp [f.length_eq, c]
  references x := by simp [c, r x, boundTo, shadowOf, shadowCtx]

/-! LINE CLEAR's rewrite of every slot (R22). -/

theorem rewriteEvery_idle {p : Part} (h : clearIsAuto p = false) : rewriteEvery p = p := by simp [rewriteEvery, h]

theorem rewriteEvery_slot {p : Part} (h : clearIsAuto p = true) (i : SlotNo) :
    (rewriteEvery p).slot i = rewritten (genView (p.slot i)) .nothing := by simp [rewriteEvery, h, Part.slot]

/-- After an automatic clear's rewrite every slot is clean in both places. -/
theorem rewriteEvery_clean {p : Part} (h : clearIsAuto p = true) (i : SlotNo) : CleanSlot i (rewriteEvery p) := by
  rw [CleanSlot, rewriteEvery_slot h i]
  exact ⟨rfl, rfl, rfl⟩

/-! Openings, markings, joined intervals. -/

theorem openUnlessHeld_held {b : BayNo} {p : Part} (h : (p.bay b).held = true) : openUnlessHeld b p = p := by simp [openUnlessHeld, h]

theorem openUnlessHeld_unheld {b : BayNo} {p : Part} (h : (p.bay b).held = false) : openUnlessHeld b p = tryOpening p := by
  simp [openUnlessHeld, h]

/-- Outside zone C the tags marked are those of the zone's queue (R35). -/
theorem zoneTags_queue {z : Zone} (h : z ≠ .C) (p : Part) : zoneTags z p = (p.queue z).filterMap (·.tag) := by simp [zoneTags, h]

theorem markUnsure_empty {z : Zone} {p : Part} (h : zoneTags z p = []) : markUnsure z p = p := by simp [markUnsure, h]

/-- A joined interval's state keeps what is known of its two targets (R126). -/
theorem withShut_taken (s : WasteState) (b : Bool) : shutTaken (withShut s b) = b ∧ openAhead (withShut s b) = openAhead s := by
  cases s <;> cases b <;> exact ⟨rfl, rfl⟩

/-- R128: an interval whose two targets lie ahead owes no pulse, whichever entries it takes the place of. -/
theorem newlyOwes_waiting (o : Nat) (u : Option Nat) (gone : List WasteEntry) : newlyOwes ⟨o, u, .waiting⟩ gone = false := rfl

/-- R129: an entry that owes what one of the entries it replaces owed already makes no pulse owed. -/
theorem newlyOwes_kept {e x : WasteEntry} {gone : List WasteEntry} (m : x ∈ gone) (h : owes x.state = owes e.state) :
    newlyOwes e gone = false := by
  simp only [newlyOwes, Bool.and_eq_false_iff, List.all_eq_false]
  exact .inr ⟨x, m, by simp [h]⟩

/-- R126: an entry placed in the place of none, owing no pulse, is armed among the others, and no pulse starts. -/
theorem placeEntry_fresh {e : WasteEntry} {rest : List WasteEntry} {p : Part} (h : newlyOwes e [] = false) :
    placeEntry e [] rest p = armEntry e { p with
      acu.waste := insertEntry e rest
      acu.mark := if e.shutT.isNone then some e.openT else p.acu.mark } := by
  simp [placeEntry, h]

/-! Forward order (R41, R126, R130), and reception at a pause. -/

/-- An entry joins those that stand in a list, and changes none of them. -/
theorem insertForward_perm {α : Type} (z : Zone) (pos : α → Nat) (e : α) (es : List α) : (insertForward z pos e es).Perm (e :: es) := by
  rw [insertForward]
  exact List.perm_middle.trans (by rw [List.takeWhile_append_dropWhile])

/-- Where no entry lies ahead of it, an entry stands at the tail. -/
theorem insertForward_tail {α : Type} {z : Zone} {pos : α → Nat} {e : α} {es : List α}
    (h : ∀ x ∈ es, precedes z (pos e) (pos x) = false) : insertForward z pos e es = es ++ [e] := by
  have k : ∀ x ∈ es, (!precedes z (pos e) (pos x)) = true := fun x m => by simp [h x m]
  rw [insertForward, List.takeWhile_eq_self_iff.2 k, List.dropWhile_eq_nil_iff.2 k]

/-- With nothing held no frame is under way, and a pause changes nothing (R203). -/
theorem dropReception_idle {l : LinkNo} {p : Part} (h : (p.link l).rx = []) : dropReception l p = p := by
  simp [dropReception, h, discardHeld]

end Sys2Proof.Machine
end

