-- ==== Sys2Proof/Tests/Slice0.lean ====
section
/-! SUPPORT. Tests: each check of WellFormed refuses an ill-formed command; figures that the manual works out; and for every statement
with hypotheses a concrete state and operands that meet all of them (`test_<part>_met`: the statement, applied to them). -/

namespace Sys2Proof.Tests

open Sys2Proof Sys2Proof.Machine

-- One theorem after another: each waits for the kernel, and each waiting thread would hold its own stack.
set_option Elab.async false

/-! A line to test on: geometry, one profile, every role enrolled. Tags 1024 and 1025 are slots 0 and 1 at generation 1. -/

def profile : Profile := ⟨5, 1, 1000, 5, 40, 20, [300, 600], [100, 250], [50, 120], [10, 30], 100, 6000⟩
def geometry : Geometry :=
  ⟨25000, 100, 40000, 100, 30000, 100, 10, 20, 2, 30000, 100, 50, 200, 30000, 2000, 100, 500, 3000, 100, 1000,
    List.replicate 8 (5000, 100)⟩
def station (r : Role) (tools : List Nat) : LinkRec := ⟨.enrolled, true, some r, 7, tools, none, [], [], [], 0, 0⟩
def supervisor : LinkRec := ⟨.up, true, none, 0, [], none, [], [], [], 0, 0⟩
def limits : List GradeLimit := List.replicate 48 ⟨1, 255⟩

def demo : Part := { Part.reset with
  rst.free := (List.range 1022).map fun n => Fin.ofNat 1024 (n + 2)
  ztr.geo := geometry
  ztr.geoValid := true
  cpl.contexts := Part.reset.cpl.contexts.set 0 ⟨some profile, 2⟩
  cpl.run := true
  cpl.grades := Vector.replicate 8 limits
  lif.link := #v[supervisor, station .moulder [5], station .scanner [], station .endmatcher [5], station .stacker [],
    station .labeller [], linkReset0] }

def idle (p : Part) : State := ⟨p, []⟩
def put (i : SlotNo) (c : Contents) (p : Part) : Part := p.setSlot i (rewritten 1 c)
def strip (st : StripState) : Strip :=
  ⟨1024, 0, 1, st, false, false, false, some 100, some 4000, some 50, some 4010, none, none, none, none, none, 0⟩
def piece (st : PieceState) : Piece :=
  ⟨1025, 1024, 1, 0, 1, 1, 300, 3010, .A, 100, 30, 0, none, none, none, none, none, false, false, st⟩
def entry (tag : Nat) : Entry := ⟨some tag, 0, 0, 100, .none⟩
def strips (st : StripState) (p : Part) : Part := put 0 (.strip (strip st)) p
def pieces (y : Piece) (p : Part) : Part := put 1 (.piece y) p
def order : Order := ⟨.active, 77, 1, .A, [300], 1000, 100, 200, 50, 3, 1, 0, 4, 1, 0, 30, 0, 0⟩
def bundle : Bundle := ⟨0, 77, 1, 0, 30, 0, 0, 0, [], false, false, none⟩
/-- Bay 1 OPEN with a bundle of the order in slot 0; the other bays held. -/
def bayed (u : Bundle) (st : BayState) (o : Order) (p : Part) : Part := { p with
  bas := (Vector.replicate 8 ⟨.idle, true, false, none⟩).set 0 ⟨st, false, false, some u⟩
  ort := ⟨(Vector.replicate 32 none).set 0 (some o), 1⟩ }
def heldBays (p : Part) : Part := { p with bas := Vector.replicate 8 ⟨.idle, true, false, none⟩ }
def taken (e : Event) (p : Part) : Part := { p with ztr.due := [e] }

theorem runs {c : Instr} {s : State} {e : Part} (h : Completes c s e) : ∃ t, exec c s = .next t := ⟨h.choose, h.choose_spec.1⟩
theorem answers {c : Instr} {l : LinkNo} {code number : Nat} {s : State} {r : Reply} {e : Part}
    (h : Replies c l code number s r e) : ∃ t, exec c s = .next t := ⟨h.choose, h.choose_spec.1⟩
theorem leaves {c : Instr} {s : State} {l : LinkNo} {fs : List Frame} (h : LeavesFrames c s l fs) : ∃ t, exec c s = .next t :=
  ⟨h.choose, h.choose_spec.1⟩
theorem ends {c : Instr} {s : State} {q : State → Prop} (h : ∃ t, exec c s = .next t ∧ q t) : ∃ t, exec c s = .next t :=
  ⟨h.choose, h.choose_spec.1⟩

/-! States that meet the laws of the Record Store, and of orders and bays. -/

/-- No record live: slot 0 free, with a double error and bad shadow parity. -/
def damagedLine : Part := { demo with
  rst := { demo.rst with
    slots := demo.rst.slots.set 0 ⟨1, .nothing, .double, ⟨1, .nothing⟩, true⟩
    free := List.finRange 1024 }
  cpl := { demo.cpl with contexts := demo.cpl.contexts.set 0 ⟨some profile, 0⟩ } }

theorem damagedLine_slot (i : SlotNo) :
    (damagedLine.slot i).contents = .nothing ∧ (damagedLine.slot i).shadow = ⟨(damagedLine.slot i).gen, .nothing⟩ := by
  by_cases e : (0 : SlotNo) = i
  · subst e
    simp [damagedLine, Part.slot]
  · have k : ¬ (0 = (i : Nat)) := fun h => e (Fin.ext h)
    simp [damagedLine, demo, Part.slot, Part.reset, storeReset, k, Slot.clean]

theorem damagedLine_laws : StoreLaws damagedLine :=
  .empty (fun i => (damagedLine_slot i).1) (fun i => (damagedLine_slot i).2) (by simp [damagedLine]) (by decide +kernel)

def oneOpen : Part := bayed bundle .opened order demo

theorem oneOpen_laws : OrderLaws oneOpen where
  counts o := (by decide +kernel : ∀ o, ∀ r ∈ oneOpen.order o,
    r.retired ≤ r.opened ∧ r.opened ≤ r.ordered ∧ (baysOf o oneOpen).length = r.opened - r.retired) o
  emptySlots := by decide +kernel
  idle := by decide +kernel
  cancelled o := (by decide +kernel : ∀ o, ∀ r ∈ oneOpen.order o, r.state = .cancelled → baysOf o oneOpen = []) o
  complete o := (by decide +kernel : ∀ o, ∀ r ∈ oneOpen.order o, r.state = .complete → r.retired = r.ordered) o

def plannedStrip : Strip := { strip .planned with plan := some ⟨100, [⟨some 1025, 0, 1, 3010⟩]⟩ }
def assigned : Piece := { piece .assigned with bay := some 0, serial := some 1 }
def secondOrder : Order := { order with number := 78, grade := .B }
def twoOrders (p : Part) : Part := { p with ort := ⟨((Vector.replicate 32 none).set 0 (some order)).set 1 (some secondOrder), 2⟩ }
def job (length : Nat) (discard : Bool) : PlanJob :=
  ⟨1024, ⟨length, [], profile, limits, 500, [[0, 0], [0, 0], [0, 0]]⟩, discard⟩

theorem zonAnswers {c : Instr} {l : LinkNo} {code number : Nat} {s : State} {r : List (List Item) → Reply} {e : Part}
    {a b d f : List (List Item) → Prop} (h : ∃ xs, a xs ∧ b xs ∧ d xs ∧ f xs ∧ Replies c l code number s (r xs) e) :
    ∃ t, exec c s = .next t :=
  have ⟨_, _, _, _, _, k⟩ := h
  answers k

/-- The state after a command; the state before it where the command answers none. -/
def after (c : Instr) (s : State) : State :=
  match exec c s with
  | .next t => t
  | .fault _ => s
  | .refused _ => s

/-! Clean slots, for the states of these tests. -/

theorem clean_put {i : SlotNo} {c : Contents} {p : Part} (h : ∀ j, CleanSlot j p) (j : SlotNo) : CleanSlot j (put i c p) := by
  by_cases e : i = j
  · subst e
    simp [CleanSlot, put, Part.slot, Part.setSlot, rewritten]
  · have k : (put i c p).slot j = p.slot j := by
      simp [put, Part.slot, Part.setSlot, Fin.val_inj, e]
    simpa only [CleanSlot, k] using h j

theorem clean_demo (j : SlotNo) : CleanSlot j demo := by
  have k : demo.slot j = Slot.clean := by simp [demo, Part.slot, Part.reset, storeReset]
  rw [CleanSlot, k]
  decide

/-! Ill-formed commands: one too large a field for each width, and one list of the wrong length, refused by each check of WellFormed. -/

def orderForm : OrderForm := ⟨99999, 1, 0, [300], 1000, 100, 200, 50, 1, 4⟩

theorem test_wf_defect : Defect.wf ⟨65536, 0, 0, 0⟩ = false := by decide
theorem test_wf_geometry : Geometry.wf { geometry with kicks := [(0, 0)] } = false := by decide
theorem test_wf_profile : Profile.wf { profile with valuesB := [] } = false := by decide
theorem test_wf_orderForm : OrderForm.wf { orderForm with priority := 256 } = false := by decide
theorem test_wf_mapForm : MapForm.wf ⟨65536, 0, [], false⟩ = false := by decide
theorem test_wf_settings : Settings.wf ⟨0, 256, 0, 0, 0, 0, 0⟩ = false := by decide
theorem test_wf_part_steps : [Instr.deadlineCompare 65536, .wasteOpenTarget 16777216, .wasteShutTarget 16777216, .sortCompare 65536,
    .kickFiring 0 65536, .tenonerCompare 65536].any Instr.wf = false := by decide
theorem test_wf_record_requests : [Instr.enrol 1 0 0 4294967296 [], .recrd 0 0 65536, .recret 0 0 65536, .errrd 0 256,
    .geold 0 256 geometry, .linclr 0 256, .zonrd 0 0 0 0 256].any Instr.wf = false := by decide
theorem test_wf_planner_requests : [Instr.ctxld 0 0 256 profile, .ctxsel 0 0 256, .grdld 0 0 0 [], .lingo 0 256, .linstp 0 256,
    .mapnext 0 256, .mappost 0 256 ⟨0, 0, [], false⟩, .outcome 0 0 0 256].any Instr.wf = false := by decide
theorem test_wf_order_requests : [Instr.ordadm 0 256 orderForm, .ordamd 0 0 0 65536, .ordcan 0 0 4294967296, .ordrem 0 0 4294967296,
    .ordrd 0 0 0 256, .ordrd 0 0 1 4294967296].any Instr.wf = false := by decide
theorem test_wf_bay_requests : [Instr.bayhld 0 0 256, .bayrel 0 0 256, .baycls 0 0 256, .lblrd 0 0 256, .bdlret 0 0 1 1 65536,
    .ntcset 0 256 ⟨0, 0, 0, 0, 0, 0, 0⟩, .cntrd 0 256, .linkrst 0 0 256].any Instr.wf = false := by decide

/-! Figures of the manual. -/

/-- Table 11-1: the check of the bytes 31 to 39 hexadecimal is 29B1. -/
theorem test_crc16_figure : crc16 [0x31#8, 0x32#8, 0x33#8, 0x34#8, 0x35#8, 0x36#8, 0x37#8, 0x38#8, 0x39#8] = 0x29B1#16 := by
  decide +kernel

/-- 10.1.1: the codes 1045200073143 and 0000100011366. -/
theorem test_label_codes :
    labelDigits (labelCode 10452 7 3 1) = [1, 0, 4, 5, 2, 0, 0, 0, 7, 3, 1, 4, 3]
      ∧ labelDigits (labelCode 1 1 1 3) = [0, 0, 0, 0, 1, 0, 0, 0, 1, 1, 3, 6, 6] := by decide +kernel

/-- The snapshot of the worked case (5.13, Tables 5-4 to 5-6). -/
def worked : Snapshot where
  length := 14000
  defects := [⟨5000, 5200, 3, 200⟩, ⟨9500, 9900, 7, 400⟩]
  profile := ⟨1, 3, 700, 50, 40, 20, [300, 400, 500], [100, 150, 200], [60, 90, 120], [30, 45, 60], 40, 30000⟩
  limits := (List.range 16).flatMap fun k => if k = 3 then [⟨0, 0⟩, ⟨2, 25⟩, ⟨15, 255⟩] else [⟨0, 0⟩, ⟨0, 0⟩, ⟨0, 0⟩]
  recovery := 300
  bonus := [[0, 30, 30], [0, 0, 0], [0, 0, 0]]

/-- Table 5-8, Table 5-9: value 460, three pieces, five cuts, three waste intervals. -/
theorem test_worked_plan :
    planValue (choosePlan worked) = 460
      ∧ (choosePlan worked).map (fun a => (a.start, a.len, a.grade, a.area))
        = [(0, 400, .A, 280), (5220, 400, .A, 280), (9920, 300, .A, 210)]
      ∧ cutsOf 40 14000 (spans (choosePlan worked)) = [4100, 5180, 9320, 9880, 13020]
      ∧ wasteOf 40 14000 (spans (choosePlan worked)) = [(4140, 5180), (9360, 9880), (13060, 14000)] := by decide +kernel

/-- Table 5-12: of three plans of value 300 the one with the longer class first. -/
theorem test_equal_values :
    (choosePlan { worked with length := 8240, defects := [], bonus := [] }).map (fun a => (a.start, a.len)) = [(0, 500), (5140, 300)] := by
  decide +kernel

/-! The hypotheses of the statements about the whole machine, and about shared operations, met. -/

def permitted : Part := { demo with
  cpl.permit := true
  cpl.runnable := true }

/-- The conditions of PERMIT by the profile and the links of `demo`. -/
theorem conditions_met {p : Part}
    (h : p.cpl.run = true ∧ p.ztr.fault = none ∧ p.ztr.geoValid = true ∧ 64 ≤ p.rst.free.length
      ∧ (p.ctx p.cpl.active).profile = some profile
      ∧ (roleLink .moulder p = some 1 ∧ profile.code ∈ (p.link 1).tools)
      ∧ (roleLink .endmatcher p = some 3 ∧ profile.code ∈ (p.link 3).tools)
      ∧ ((p.link 1).role = some .moulder ∧ (p.link 1).state = .enrolled)
      ∧ ((p.link 2).role = some .scanner ∧ (p.link 2).state = .enrolled)
      ∧ ((p.link 3).role = some .endmatcher ∧ (p.link 3).state = .enrolled)) : PermitConditions p :=
  let ⟨run, fault, geo, free, k, m, e, l, sc, em⟩ := h
  ⟨run, fault, geo, ⟨profile, k, ⟨1, m⟩, ⟨3, e⟩⟩, ⟨1, l⟩, ⟨2, sc⟩, ⟨3, em⟩, free⟩

theorem test_PermitLawKeptByEveryStep_met (ob : Obligations.PermitLawKeptByEveryStep) :
    ∃ t, step ⟨permitted, [.eEyeLeadingEdge]⟩ = .next t ∧ (t.part.cpl.permit = true → PermitConditions t.part) :=
  ⟨_, rfl, ob ⟨permitted, [.eEyeLeadingEdge]⟩ _ (fun _ => conditions_met (by decide +kernel)) rfl⟩

theorem test_PermitFollowsItsConditions_met (ob : Obligations.PermitFollowsItsConditions) :
    ∃ t, exec .eEyeLeadingEdge (idle demo) = .next t ∧ t.part.cpl.permit = true :=
  ⟨_, rfl, (ob .eEyeLeadingEdge (idle demo) _ rfl (by decide +kernel)).1 (conditions_met (by decide +kernel)) (by decide +kernel)⟩

theorem test_RecordAndBundleLawsKeptByEveryStep_met (ob : Obligations.RecordAndBundleLawsKeptByEveryStep) :
    (∃ t, step ⟨damagedLine, [.aEyeLeadingEdge]⟩ = .next t ∧ StoreLaws t.part)
      ∧ ∃ t, step ⟨oneOpen, [.bayhld 0 9 1]⟩ = .next t ∧ OrderLaws t.part :=
  ⟨⟨_, rfl, ob.1 ⟨damagedLine, [.aEyeLeadingEdge]⟩ _ damagedLine_laws rfl⟩, ⟨_, rfl, ob.2 ⟨oneOpen, [.bayhld 0 9 1]⟩ _ oneOpen_laws rfl⟩⟩

theorem test_SettledKeptByEveryStep_met (ob : Obligations.SettledKeptByEveryStep) :
    ∃ t, step ⟨demo, [.scrubRead]⟩ = .next t ∧ Settled t.part := ⟨_, rfl, ob ⟨demo, [.scrubRead]⟩ _ (by decide +kernel) rfl⟩

theorem test_ResetInputAndPowerOn_met (ob : Obligations.ResetInputAndPowerOn) :
    exec .scrubRead (idle { demo with inReset := true }) = .next (idle { demo with inReset := true }) :=
  ob.1.2 .scrubRead _ rfl (by decide) (by decide)

theorem test_DecodedRequestIsEncodedRequest_met (ob : Obligations.DecodedRequestIsEncodedRequest) :
    decodeRequest 5 0x49 9 [8#8, 0#8, 1#8, 134#8, 159#8, 39#8, 15#8] = .request (.bdlret 5 9 8 99999 9999) :=
  ob _ _ _ _ _ (by decide) (by decide +kernel)

theorem test_FramesAreReceivedOrDiscarded_met (ob : Obligations.FramesAreReceivedOrDiscarded) :
    receive ([1#8, 2#8] ++ frameBytes 1 0x10 255 [4#8, 0#8] ++ [7#8]) = .whole 1 0x10 255 [4#8, 0#8] [7#8]
      ∧ receive ([1#8] ++ 0xD4#8 :: ([BitVec.ofNat 8 1, BitVec.ofNat 8 0x10, BitVec.ofNat 8 9, BitVec.ofNat 8 0] ++ [] ++ [0#8, 0#8]) ++ [])
        = .bad ([BitVec.ofNat 8 1, BitVec.ofNat 8 0x10, BitVec.ofNat 8 9, BitVec.ofNat 8 0] ++ [] ++ [0#8, 0#8] ++ []) :=
  ⟨ob.1 [1#8, 2#8] [4#8, 0#8] [7#8] 1 0x10 255 (by decide) (by decide) (by decide) (by decide) (by decide),
   ob.2 [1#8] [] [] 1 0x10 9 0#8 0#8 (by decide) (by decide) (by decide +kernel)⟩

theorem test_ShortfallIsClamped_met (ob : Obligations.ShortfallIsClamped) :
    shortfall 0 { order with opened := 3 } demo = 0 ∧ (shortfall 0 order demo : Int) = max 0 (3000 - 30) :=
  ⟨(ob 0 _ _).1 (by decide +kernel), (ob 0 order demo).2.1 (by decide +kernel)⟩

theorem test_OpeningPrefersPriorityThenSequence_met (ob : Obligations.OpeningPrefersPriorityThenSequence) :
    (∃ r, (bayed bundle .opened order demo).order 0 = some r ∧ r.opened < r.ordered)
      ∧ ∀ (q : OrderNo) (x : Order), demo.order q = some x → ¬ (x.state = .active ∧ x.opened < x.ordered) :=
  ⟨let ⟨r, h, _, k, _⟩ := (ob.1 (bayed bundle .opened order demo)).1 0 (by decide +kernel); ⟨r, h, k⟩,
   (ob.1 demo).2 (by decide +kernel)⟩

theorem test_ReservationPrefersPriority_met (ob : Obligations.OpeningPrefersPriorityThenSequence) :
    (∃ r, (bayed bundle .opened order demo).order 0 = some r ∧ r.state = .active)
      ∧ ∀ (q : OrderNo) (x : Order), demo.order q = some x → x.state = .active → x.species = 1 → x.grade = .A → 300 ∈ x.classes →
        ¬ 0 < shortfall q x demo :=
  ⟨let ⟨r, ⟨h, k, _⟩, _⟩ := (ob.2 (piece .planned) (bayed bundle .opened order demo)).1 0 (by decide +kernel); ⟨r, h, k⟩,
   fun q x h a b c d e => (ob.2 (piece .planned) demo).2 (by decide +kernel) q x ⟨h, a, b, c, d, e⟩⟩

/-- Bays 1 and 2 OPEN, of two orders that take the piece, the second of higher priority. -/
def twoCandidates : Part := (bayed bundle .opened order (twoOrders demo)).setBay 1 ⟨.opened, false, false, some { bundle with slot := 1 }⟩
  |>.setOrder 1 (some { order with priority := 9 })

theorem candidate_met {y : Piece} {p : Part} {b : BayNo} {u : Bundle} {o : Order} (h : (p.bay b).bundle = some u)
    (k : p.order u.slot = some o)
    (m : ((p.bay b).state = .opened ∧ (p.bay b).supHold = false ∧ (p.bay b).staHold = false ∧ o.state = .active ∧ o.species = y.species)
      ∧ (o.grade = y.grade ∧ y.len ∈ o.classes ∧ u.landed + u.transit + y.area ≤ o.target + o.tolerance
      ∧ (y.len < o.shortLength → (u.shortLanded + u.shortTransit + y.area) * 100 ≤ o.shortCap * o.target))
      ∧ (p.kickQueue b).length < 8 ∧ ahead .E (kickTarget b (y.lead.getD 0) p) (p.counter .E) < 8388608) : IsCandidate y p b u o :=
  let ⟨⟨a, b, c, d, e⟩, ⟨f, g, i, j⟩, l, n⟩ := m
  ⟨h, k, a, b, c, d, e, f, g, i, j, l, n⟩

theorem test_SortChoosesBay_met (ob : Obligations.SortCompareAssignsPiece) :
    (∃ u o, IsCandidate (piece .beltE) twoCandidates 1 u o ∧ order.priority < o.priority)
      ∧ (∃ u : Bundle, (some 0 : Option OrderNo) = some u.slot)
      ∧ (∀ b u o, ¬ IsCandidate (piece .beltE) demo b u o) := by
  refine ⟨?_, ?_, (ob.2.2 (piece .beltE) demo).2 (by decide +kernel)⟩
  · obtain ⟨u, o, h, _, k⟩ := (ob.2.2 (piece .beltE) twoCandidates).1 ⟨1, 1, 9, 30⟩ (by decide +kernel)
    refine ⟨u, o, h, ?_⟩
    have c : IsCandidate (piece .beltE) twoCandidates 0 bundle order := candidate_met rfl rfl (by decide +kernel)
    rcases k (fun b v r _ => nofun) 0 bundle order c with g | ⟨_, g | ⟨_, g⟩⟩
    · exact g
    · rw [Option.some.inj (h.1.symm.trans (by decide +kernel : _ = some { bundle with slot := 1 }))] at g
      exact absurd g (by decide)
    · exact absurd g (by decide)
  · obtain ⟨u, o, h, k, _⟩ := (ob.2.2 { piece .beltE with reserved := some 0 } twoCandidates).1 ⟨0, 0, 4, 30⟩ (by decide +kernel)
    exact ⟨u, (k ⟨0, bundle, order, candidate_met rfl rfl (by decide +kernel), rfl⟩).1⟩

def wasting (es : List WasteEntry) : Part := { demo with acu.waste := es }

def heldPair (es : List WasteEntry) : Part := { wasting es with
  acu.lastCoil := some .opening
  acu.dead := some 1 }

theorem test_WasteIntervalsJoinAndMerge_met (ob : Obligations.FlapServesOwedPulses) :
    (enterWaste 99 (some 100) (wasting [⟨9, some 99, .shutDue⟩])).acu.waste = [⟨9, some 100, .opened⟩]
      ∧ (enterWaste 9 (some 99) (wasting [⟨9, some 99, .opened⟩])).acu.waste = [⟨9, some 99, .opened⟩]
      ∧ (enterWaste 5 (some 100) (wasting [⟨9, some 99, .opened⟩])).acu.waste = [⟨5, some 100, .waiting⟩]
      ∧ (enterWaste 5 (some 9) (wasting [⟨9, some 99, .opened⟩])).acu.waste = [⟨5, some 99, .waiting⟩]
      ∧ (enterWaste 5 (some 9) (wasting [⟨9, some 99, .shutDue⟩])).acu.waste = [⟨5, some 99, .waitingShut⟩]
      ∧ (enterWaste 99 none (wasting [⟨9, some 99, .opened⟩])).acu.mark = some 9
      ∧ (enterWaste 100 (some 101) (wasting [⟨9, some 99, .opened⟩])).acu.waste = [⟨9, some 99, .opened⟩, ⟨100, some 101, .waiting⟩]
      ∧ (enterWaste 7 (some 8) (wasting [⟨9, some 99, .opened⟩])).acu.waste = [⟨7, some 8, .waiting⟩, ⟨9, some 99, .opened⟩]
      ∧ (enterWaste 99 (some 100) (wasting [⟨9, some 99, .waiting⟩])).ztr.compares = [⟨.wasteOpen 9, 9⟩, ⟨.wasteShut 100, 100⟩]
      ∧ (enterWaste 99 (some 105) (wasting [⟨9, some 99, .opened⟩, ⟨105, some 110, .opened⟩])).acu.waste = [⟨9, some 110, .opened⟩]
      ∧ (enterWaste 99 (some 105) (wasting [⟨9, some 99, .opened⟩, ⟨105, some 110, .waitingShut⟩])).acu
        = { demo.acu with coil := some (.shutting, demo.acu.flapWidth), flapOpen := false }
      ∧ (enterWaste 99 (some 105) (heldPair [⟨9, some 99, .opened⟩, ⟨105, some 110, .bothDue⟩])).acu
        = { (heldPair [⟨9, some 110, .shutDue⟩]).acu with mark := none }
      ∧ (enterWaste 632 (some 633) (wasting ((List.range 63).map (fun k => ⟨10 * k, some (10 * k + 1), .opened⟩)
          ++ [⟨630, some 631, .shutDue⟩]))).acu.waste
        = (List.range 63).map (fun k => ⟨10 * k, some (10 * k + 1), .opened⟩) ++ [⟨630, some 633, .opened⟩] := by
  have one := fun (o t o' t' : Nat) (w : WasteState) => ob.2.2.2.2.1 o t o' t' w (wasting [⟨o', some t', w⟩]) rfl
  refine ⟨(one _ _ _ _ _).1 ?_ ?_, (one _ _ _ _ _).2.1 ?_ ?_, (one _ _ _ _ _).2.2.1 ?_ ?_, (one _ _ _ _ _).2.2.2.1 ?_ ?_ ?_,
    (one _ _ _ _ _).2.2.2.2.1 ?_ ?_ ?_, ((one 99 100 9 99 .opened).2.2.2.2.2.1 ?_).2,
    ((one _ _ _ _ _).2.2.2.2.2.2.1 (by simp only [IntervalsMeet]; decide +kernel)).2.1 ?_,
    ((one _ _ _ _ _).2.2.2.2.2.2.1 (by simp only [IntervalsMeet]; decide +kernel)).2.2 ?_,
    (one _ _ _ _ _).2.2.2.2.2.2.2 ?_ ?_ ?_ ?_ ?_,
    ob.2.2.2.2.2.1 99 105 9 99 105 110 .opened .opened _ rfl ?_ ?_ ?_ ?_ ?_ ?_ ?_,
    (ob.2.2.2.2.2.2.1 99 105 9 99 105 110 .waitingShut _ rfl ?_ ?_ ?_ ?_ ?_ ?_ (.inl rfl)).2 ?_,
    (ob.2.2.2.2.2.2.1 99 105 9 99 105 110 .bothDue (heldPair [⟨9, some 99, .opened⟩, ⟨105, some 110, .bothDue⟩]) rfl ?_ ?_ ?_ ?_ ?_ ?_
      (.inr rfl)).1 ?_,
    ob.2.2.2.2.2.2.2 632 633 630 631 .shutDue _ _ rfl ?_ (List.forall_mem_map.2 (by simp only [IntervalsMeet]; decide +kernel))
      (by simp only [IntervalsMeet]; decide +kernel) ?_ ?_⟩ <;> decide +kernel

theorem test_DefectsAndPlacementGrades_met (ob : Obligations.DefectsAndPlacementGrades) :
    (5220 : Nat) ≤ worked.length ∧ (normalised worked).length ≤ 16 :=
  ⟨((ob.1 worked).2.1 ⟨4980, 5220, 3, 200⟩ (by decide +kernel)).2, (ob.1 worked).2.2 (by decide)⟩

theorem test_ChosenPlanIsBest_met (ob : Obligations.ChosenPlanIsBest) :
    choosePlan { worked with length := 39 } = [] ∧ choosePlan { worked with length := 40 } ∈ admissiblePlans { worked with length := 40 } :=
  ⟨(ob _).1 (by decide), ((ob _).2 (by decide)).1⟩

def onePlace : List Place := [⟨0, 1, 300, 3100, .A, 100, 210⟩]
def short : Snapshot := { worked with length := 3101, defects := [] }

theorem test_AdmissiblePlansAndTheirCuts_met (ob : Obligations.AdmissiblePlansAndTheirCuts) :
    (∀ pl ∈ onePlace, IsPlace short pl) ∧ (cutsOf short.profile.kerf short.length (spans onePlace)).Pairwise (· < ·) :=
  ⟨((ob.1 short onePlace).1 (by decide +kernel)).2.1, (ob.2.2 short onePlace (by decide +kernel) (by decide)).1⟩

theorem test_PlacesKerfsAndWasteCoverStrip_met (ob : Obligations.PlacesKerfsAndWasteCoverStrip) :
    ∀ iv ∈ wasteOf short.profile.kerf short.length (spans onePlace), iv.1 < iv.2 ∧ iv.2 ≤ short.length :=
  (ob short onePlace (by decide +kernel) (by decide)).2.1

theorem test_LabelCodeCarriesCheck_met (ob : Obligations.LabelCodeCarriesCheck) :
    (makeLabel 7 { bundle with order := 99999, serial := 9999 } { order with species := 9 }).digits.length = 13 :=
  (ob 7 _ _ (by decide) (by decide) (by decide) (by decide)).1

def countOne : Coalesce := ⟨4294967294, 0, 0, 1, 1⟩

theorem test_CountableEventsCoalesce_met (ob : Obligations.CountNoticesCoalesce) :
    (countEvent .landed { demo with lif.coalesce := some countOne }).lif.coalesce = some ⟨4294967295, 0, 0, 20, 1⟩
      ∧ (countEvent .full demo).lif.coalesce = some ⟨0, 0, 1, 20, 160⟩
      ∧ ∃ q, countEvent .rejected { demo with lif.delay := 0 } = q ∧ q.lif.coalesce = none := by
  refine ⟨?_, ?_, ?_⟩
  · rw [(ob.1 .landed _).1 countOne rfl]; rfl
  · rw [(ob.1 .full demo).2.1 rfl (by decide)]; rfl
  · exact ⟨_, (ob.1 .rejected _).2.2 rfl rfl rfl (by decide +kernel), rfl⟩

/-! The hypotheses of the statements about commands, met: clause by clause, each applied to its state and operands. -/

theorem test_ZoneForwardStepCounts_met (ob : Obligations.ZoneStepsCount) :
    ∃ t, exec (.zoneForwardStep .C) (idle { demo with ztr.zoneC := ⟨16777215, 16777215, []⟩, ztr.compares := [⟨.lastCut, 0⟩] }) = .next t :=
        by
  refine runs (ob.1 .C _ ?_ ?_) <;> decide +kernel

theorem test_ZoneReverseStepCounts_met (ob : Obligations.ZoneStepsCount) :
    ∃ t, exec (.zoneReverseStep .A) (idle { demo with ztr.zoneA := ⟨1, 200, []⟩ }) = .next t := by
  refine runs (ob.2.1 .A _ ?_ ?_ ?_) <;> decide +kernel

theorem test_ReverseBeyondLimitMarksUnsure_met (ob : Obligations.ZoneStepsCount) :
    ∃ t, exec (.zoneReverseStep .A) (idle (strips .inA { demo with ztr.zoneA := ⟨1, 201, [entry 1024]⟩ })) = .next t := by
  refine runs ((ob.2.2.1 (strip .inA) (entry 1024) _ ?_ ?_ ?_ ?_ ?_ ?_) ?_ ?_) <;> decide +kernel

theorem test_EmptyLugPulseCounts_met (ob : Obligations.LugPulseCountsAndLoads) :
    ∃ t, exec (.lugPulse false) (idle { demo with ztr.zoneD := ⟨65535, 0, []⟩ }) = .next t := by
  refine runs (ob.1 _ ?_ ?_) <;> decide +kernel

theorem test_OccupiedLugWithoutMatchIsUntagged_met (ob : Obligations.LugPulseCountsAndLoads) :
    ∃ t, exec (.lugPulse true) (idle demo) = .next t := by
  refine runs (ob.2.1 _ ?_ ?_ ?_ ?_ ?_ ?_) <;> decide +kernel

theorem test_LugPulseLoadsPiece_met (ob : Obligations.LugPulseCountsAndLoads) :
    ∃ t, exec (.lugPulse true) (idle (pieces (piece .beltC) { demo with ztr.zoneC := ⟨100, 100, [entry 1025]⟩ })) = .next t := by
  refine runs ((ob.2.2 (piece .beltC) (entry 1025) _ ?_ ?_ ?_ ?_ ?_ ?_) ?_ ?_ ?_ ?_) <;> decide +kernel

theorem test_NoEdgeWithoutChange_met (ob : Obligations.EdgesChangeTheirEye) :
    (∃ t, exec (.aEyeLeadingEdge) (idle { demo with ztr.eyeA := ⟨true, 0, 0⟩ }) = .next t)
    ∧ (∃ t, exec (.aEyeTrailingEdge) (idle demo) = .next t) := by
  refine ⟨runs (ob.1.1 _ List.mem_cons_self _ ?_ ?_ ?_),
    runs (ob.1.2 _ List.mem_cons_self _ ?_ ?_ ?_)⟩ <;> decide +kernel

theorem test_SorterTrailingEdgeKeepsPosition_met (ob : Obligations.EdgesChangeTheirEye) :
    (∃ t, exec (.eyeTrailingEdge .eEye) (idle { demo with ztr.eyeE := ⟨true, 0, 0⟩ }) = .next t)
    ∧ (∃ t, exec (.eyeTrailingEdge .endEye) (idle { demo with ztr.eyeX := ⟨true, 0, 0⟩ }) = .next t) := by
  refine ⟨runs ((ob.2.1 _ ?_ ?_).1 ?_),
    runs ((ob.2.1 _ ?_ ?_).2 ?_)⟩ <;> decide +kernel

theorem test_AEyeEntersItemWithoutRecord_met (ob : Obligations.AEyeLeadingEdgeEntersItem) :
    (∃ t, exec (.aEyeLeadingEdge) (idle { demo with ztr.geoValid := false, ztr.untracked := 4294967294 }) = .next t)
    ∧ (∃ t, exec (.aEyeLeadingEdge) (idle { demo with cpl.active := 1 }) = .next t)
    ∧ (∃ t, exec (.aEyeLeadingEdge) (idle { demo with rst.free := [] }) = .next t) := by
  refine ⟨runs ((ob.2 _ ?_ ?_ ?_ ?_).1 ?_),
    runs ((ob.2 _ ?_ ?_ ?_ ?_).2 ?_ ?_ ?_ ?_),
    runs ((ob.2 _ ?_ ?_ ?_ ?_).2 ?_ ?_ ?_ ?_)⟩ <;> decide +kernel

theorem test_AEyeMakesStripRecord_met (ob : Obligations.AEyeLeadingEdgeEntersItem) :
    ∃ t, exec (.aEyeLeadingEdge) (idle (demo.setSlot 2 (rewritten 63 .nothing))) = .next t := by
  refine runs ((ob.1 profile 2 ((List.range 1021).map fun n => Fin.ofNat 1024 (n + 3)) _ ?_ ?_ ?_ ?_ ?_ ?_) ?_ ?_) <;> decide +kernel

theorem test_AEyeTrailingEdgeMeasures_met (ob : Obligations.AEyeTrailingEdgeMeasures) :
    (∃ t, exec (.aEyeTrailingEdge) (idle (strips .enteringA
        { demo with ztr.zoneA := ⟨6100, 6100, []⟩, ztr.eyeA := ⟨true, 100, 0⟩, ztr.itemA := .tag 1024 })) = .next t)
    ∧ (∃ t, exec (.aEyeTrailingEdge) (idle (strips .enteringA
        { demo with ztr.zoneA := ⟨6101, 6101, []⟩, ztr.eyeA := ⟨true, 100, 0⟩, ztr.itemA := .tag 1024 })) = .next t) := by
  refine ⟨runs (((ob (strip .enteringA) profile 100 _ ?_ ?_ ?_ ?_ ?_ ?_) ?_ ?_ ?_).1 ?_),
    runs (((ob (strip .enteringA) profile 100 _ ?_ ?_ ?_ ?_ ?_ ?_) ?_ ?_ ?_).2 ?_)⟩ <;> decide +kernel

theorem test_BEyeMatchesZoneAHead_met (ob : Obligations.BEyeLeadingEdgeEntersItem) :
    ∃ t, exec (.bEyeLeadingEdge) (idle (strips .inA { demo with ztr.zoneA := ⟨100, 100, [entry 1024]⟩ })) = .next t := by
  refine runs ((ob.1 (strip .inA) (entry 1024) _ ?_ ?_ ?_ ?_ ?_ ?_) ?_ ?_ ?_ ?_ ?_) <;> decide +kernel

theorem test_BEyeMakesUntrackedStrip_met (ob : Obligations.BEyeLeadingEdgeEntersItem) :
    (∃ t, exec (.bEyeLeadingEdge) (idle demo) = .next t)
    ∧ (∃ t, exec (.bEyeLeadingEdge) (idle { demo with cpl.active := 3 }) = .next t) := by
  refine ⟨runs (((ob.2 _ ?_ ?_ ?_ ?_ ?_ ?_) ?_).1 profile 2 ((List.range 1021).map fun n => Fin.ofNat 1024 (n + 3)) ?_ ?_),
    runs (((ob.2 _ ?_ ?_ ?_ ?_ ?_ ?_) ?_).2 ?_)⟩ <;> decide +kernel

theorem test_BEyeTrailingEdgeOffersScan_met (ob : Obligations.BEyeTrailingEdgeOffersScan) :
    (∃ t, exec (.bEyeTrailingEdge) (idle (strips .enteringB
        { demo with ztr.zoneB := ⟨4100, 5000, []⟩, ztr.eyeB := ⟨true, 50, 0⟩, ztr.itemB := .tag 1024 })) = .next t)
    ∧ (∃ t, exec (.bEyeTrailingEdge) (idle (strips .enteringB
        { demo with ztr.zoneB := ⟨4101, 5000, []⟩, ztr.eyeB := ⟨true, 50, 0⟩, ztr.itemB := .tag 1024 })) = .next t) := by
  refine ⟨runs (((ob (strip .enteringB) 2 50 4000 _ ?_ ?_ ?_ ?_ ?_ ?_) ?_ ?_ ?_).1 ?_ ?_ ?_ ?_ ?_),
    runs (((ob (strip .enteringB) 2 50 4000 _ ?_ ?_ ?_ ?_ ?_ ?_) ?_ ?_ ?_).2 ?_)⟩ <;> decide +kernel

theorem test_CEyeOpensForUnknownItem_met (ob : Obligations.CEyeOpensAndClosesInterval) :
    ∃ t, exec (.cEyeLeadingEdge) (idle demo) = .next t := by
  refine runs ((ob.1 _ ?_ ?_ ?_ ?_ ?_ ?_) ?_) <;> decide +kernel

theorem test_CEyeWastesUnplannedStrip_met (ob : Obligations.CEyeWastesUnplannedStrip) :
    (∃ t, exec (.cEyeLeadingEdge) (idle (strips .rejecting { demo with ztr.zoneB := ⟨100, 100, [entry 1024]⟩, cpl.queue := [1024] })) =
        .next t)
    ∧ (∃ t, exec (.cEyeLeadingEdge) (idle (strips .mapped { demo with ztr.zoneB := ⟨100, 100, [entry 1024]⟩, cpl.queue := [1024] })) = .next
        t) := by
  refine ⟨runs (((ob (strip .rejecting) (entry 1024) 4010 _ ?_ ?_ ?_ ?_ ?_ ?_) ?_ ?_ ?_ ?_ ?_ ?_) ?_ ?_ ?_ ?_),
    runs (((ob (strip .mapped) (entry 1024) 4010 _ ?_ ?_ ?_ ?_ ?_ ?_) ?_ ?_ ?_ ?_ ?_ ?_) ?_ ?_ ?_ ?_)⟩ <;> decide +kernel

theorem test_CEyeSchedulesPlannedStrip_met (ob : Obligations.CEyeSchedulesPlannedStrip) :
    ∃ t, exec (.cEyeLeadingEdge) (idle (pieces (piece .planned) (put 0 (.strip plannedStrip)
        { demo with ztr.zoneB := ⟨0, 0, [entry 1024]⟩ }))) = .next t := by
  refine runs ((((ob.1 plannedStrip (piece .planned) (entry 1024) 100 ⟨some 1025, 0, 1, 3010⟩ _ ?_ ?_ ?_ ?_ ?_ ?_) ?_ ?_ ?_ ?_ ?_ ?_) ?_ ?_
      ?_ ?_ ?_ ?_) ?_ ?_ ?_) <;> decide +kernel

theorem test_CEyeTrailingEdgeClosesInterval_met (ob : Obligations.CEyeOpensAndClosesInterval) :
    (∃ t, exec (.cEyeTrailingEdge) (idle { demo with ztr.eyeC := ⟨true, 0, 0⟩ }) = .next t)
    ∧ (∃ t, exec (.cEyeTrailingEdge) (idle
        { demo with ztr.eyeC := ⟨true, 0, 0⟩, acu.mark := some 900, acu.waste := [⟨900, none, .opened⟩] }) = .next t) := by
  refine ⟨runs ((ob.2.2 _ ?_ ?_ ?_ ?_).1 ?_),
    runs ((ob.2.2 _ ?_ ?_ ?_ ?_).2 900 .opened ?_ ?_ ?_)⟩ <;> decide +kernel

theorem test_EEyeDischargesLug_met (ob : Obligations.SorterEyesMoveItems) :
    (∃ t, exec (.eEyeLeadingEdge) (idle (pieces (piece .lug) { demo with ztr.zoneD := ⟨100, 0, [entry 1025]⟩ })) = .next t)
    ∧ (∃ t, exec (.eEyeLeadingEdge) (idle demo) = .next t) := by
  refine ⟨runs ((ob.1 _ ?_ ?_ ?_ ?_ ?_ ?_).1 (piece .lug) (entry 1025) ?_ ?_ ?_ ?_ ?_),
    runs ((ob.1 _ ?_ ?_ ?_ ?_ ?_ ?_).2 ?_)⟩ <;> decide +kernel

theorem test_EndEyeSendsItemToEndBin_met (ob : Obligations.SorterEyesMoveItems) :
    (∃ t, exec (.endEyeLeadingEdge) (idle (pieces (piece .unsorted) { demo with ztr.zoneE := ⟨100, 100, [entry 1025]⟩ })) = .next t)
    ∧ (∃ t, exec (.endEyeLeadingEdge) (idle { demo with ztr.stray := 4294967294 }) = .next t) := by
  refine ⟨runs ((ob.2 _ ?_ ?_ ?_ ?_).1 (piece .unsorted) (entry 1025) ?_ ?_ ?_ ?_ ?_ ?_),
    runs ((ob.2 _ ?_ ?_ ?_ ?_).2 ?_ ?_)⟩ <;> decide +kernel

theorem test_CompareNotTakenChangesNothing_met (ob : Obligations.TrackerComparesAct) :
    ∃ t, exec (.deadlineCompare 7) (idle demo) = .next t := by
  refine runs (ob.1 (.deadline 7) _ ?_ ?_ ?_ (by intro t h; cases h)) <;> decide +kernel

theorem test_ExpiryOfHeadIsLoss_met (ob : Obligations.TrackerComparesAct) :
    (∃ t, exec (.handoffExpiry .A) (idle (taken (.expiry .A) { demo with ztr.zoneA := ⟨0, 0, [⟨none, 0, 0, 100, .none⟩]⟩ })) = .next t)
    ∧ (∃ t, exec (.handoffExpiry .A) (idle (strips .inA (taken (.expiry .A) { demo with ztr.zoneA := ⟨0, 0, [entry 1024]⟩ }))) = .next t) :=
        by
  refine ⟨runs ((ob.2.1 ⟨none, 0, 0, 100, .none⟩ _ ?_ ?_ ?_ ?_).1 ?_),
    runs ((ob.2.1 (entry 1024) _ ?_ ?_ ?_ ?_).2 (strip .inA) ?_ ?_ ?_)⟩ <;> decide +kernel

theorem test_DeadlineRejectsStripWithoutPlan_met (ob : Obligations.TrackerComparesAct) :
    (∃ t, exec (.deadlineCompare 1024) (idle (strips .scanning (taken (.deadline 1024) demo))) = .next t)
    ∧ (∃ t, exec (.deadlineCompare 1024) (idle (strips .mapped (taken (.deadline 1024) demo))) = .next t)
    ∧ (∃ t, exec (.deadlineCompare 1024) (idle (strips .planning (taken (.deadline 1024) demo))) = .next t) := by
  refine ⟨runs ((ob.2.2.2 (strip .scanning) _ ?_ ?_ ?_ ?_).1 ?_),
    runs ((ob.2.2.2 (strip .mapped) _ ?_ ?_ ?_ ?_).1 ?_),
    runs ((ob.2.2.2 (strip .planning) _ ?_ ?_ ?_ ?_).2 ?_ ?_)⟩ <;> decide +kernel

theorem test_TenonerCompareSendsLugten_met (ob : Obligations.TenonerCompareSendsLugten) :
    (∃ t, exec (.tenonerCompare 0) (idle (pieces (piece .lug) (taken (.tenoner 0) { demo with ztr.zoneD := ⟨10, 0, [entry 1025]⟩ }))) =
        .next t)
    ∧ (∃ t, exec (.tenonerCompare 0) (idle (pieces (piece .lug) (taken (.tenoner 0) (({ demo with ztr.zoneD := ⟨10, 0, [entry 1025]⟩ } :
        Part).setLink 3 linkReset0)))) = .next t)
    ∧ (∃ t, exec (.tenonerCompare 0) (idle (pieces (piece .lug) (taken (.tenoner 0) (({ demo with ztr.zoneD := ⟨10, 0, [entry 1025]⟩ } :
        Part).setLink 3 linkReset0)))) = .next t) := by
  refine ⟨runs (((ob (piece .lug) (entry 1025) _ ?_ ?_ ?_ ?_ ?_ ?_) ?_).1 3 ?_ ?_),
    runs ((((ob (piece .lug) (entry 1025) _ ?_ ?_ ?_ ?_ ?_ ?_) ?_).2 ?_).1),
    leaves ((((ob (piece .lug) (entry 1025) _ ?_ ?_ ?_ ?_ ?_ ?_) ?_).2 ?_).2 ?_ ?_ 0)⟩ <;> decide +kernel

theorem test_SawFiresForHead_met (ob : Obligations.SawFiresAndPulsesEnd) :
    (∃ t, exec (.sawActionFiring) (idle (put 0 (.strip { strip .cutting with leadC := some 0, pendingSaw := 2 }) (taken (.saw 500)
        { demo with ztr.zoneC := ⟨500, 500, []⟩, acu.saw := [⟨500, 1024⟩], ztr.cutList := [⟨1024, 0⟩] }))) = .next t)
    ∧ (∃ t, exec (.sawActionFiring) (idle (put 0 (.strip { strip .cutting with leadC := some 0, pendingSaw := 1 }) (taken (.saw 500)
        { demo with ztr.zoneC := ⟨500, 500, []⟩, acu.saw := [⟨500, 1024⟩], ztr.cutList := [⟨1024, 0⟩] }))) = .next t) := by
  refine ⟨runs ((ob.1 { strip .cutting with leadC := some 0, pendingSaw := 2 } 500 [] _ ?_ ?_ ?_ ?_ ?_ ?_).1 ?_),
    runs ((ob.1 { strip .cutting with leadC := some 0, pendingSaw := 1 } 500 [] _ ?_ ?_ ?_ ?_ ?_ ?_).2 ?_)⟩ <;> decide +kernel

theorem test_LastCutCompareDropsPosition_met (ob : Obligations.SawFiresAndPulsesEnd) :
    ∃ t, exec (.lastCutCompare) (idle (taken .lastCut { demo with acu.lastCut := some 500 })) = .next t := by
  refine runs (ob.2.1 _ ?_ ?_ ?_) <;> decide +kernel

theorem test_PulseEndTurnsOutputOff_met (ob : Obligations.SawFiresAndPulsesEnd) :
    (∃ t, exec (.sawPulseEnd) (idle { demo with acu.sawPulse := some 20 }) = .next t)
    ∧ (∃ t, exec (.kickPulseEnd 7) (idle { demo with acu.sawPulse := some 20 }) = .next t) := by
  refine ⟨runs ((ob.2.2 0 _ ?_ ?_).1),
    runs ((ob.2.2 7 _ ?_ ?_).2)⟩ <;> decide +kernel

theorem test_OpenTargetStartsOpenPulse_met (ob : Obligations.FlapServesOwedPulses) :
    (∃ t, exec (.wasteOpenTarget 9) (idle (taken (.wasteOpen 9)
        { demo with acu.waste := [⟨9, some 99, .waiting⟩], acu.lastCoil := some .shutting, acu.dead := none })) = .next t)
    ∧ (∃ t, exec (.wasteOpenTarget 9) (idle (taken (.wasteOpen 9)
        { demo with acu.waste := [⟨9, some 99, .waiting⟩], acu.lastCoil := some .opening, acu.dead := some 10 })) = .next t)
    ∧ (∃ t, exec (.wasteOpenTarget 9) (idle (taken (.wasteOpen 9)
        { demo with acu.waste := [⟨9, some 99, .waiting⟩], acu.lastCoil := some .shutting, acu.dead := some 10 })) = .next t) := by
  refine ⟨runs ((ob.1 9 (some 99) _ ?_ ?_ ?_ ?_ ?_).1 ?_),
    runs ((ob.1 9 (some 99) _ ?_ ?_ ?_ ?_ ?_).1 ?_),
    runs ((ob.1 9 (some 99) _ ?_ ?_ ?_ ?_ ?_).2 ?_ ?_)⟩ <;> decide +kernel

theorem test_ShutTargetStartsShutPulse_met (ob : Obligations.FlapServesOwedPulses) :
    (∃ t, exec (.wasteShutTarget 99) (idle (taken (.wasteShut 99)
        { demo with acu.waste := [⟨9, some 99, .opened⟩], acu.coil := none, acu.flapOpen := true })) = .next t)
    ∧ (∃ t, exec (.wasteShutTarget 99) (idle (taken (.wasteShut 99)
        { demo with acu.waste := [⟨9, some 99, .opened⟩], acu.coil := some (.opening, 30), acu.flapOpen := true })) = .next t) := by
  refine ⟨runs ((ob.2.1 9 99 _ ?_ ?_ ?_ ?_).1 ?_ ?_),
    runs ((ob.2.1 9 99 _ ?_ ?_ ?_ ?_).2 ?_)⟩ <;> decide +kernel

theorem test_DeadTimeSeparatesFlapPulses_met (ob : Obligations.FlapServesOwedPulses) :
    (∃ t, exec (.flapPulseEnd) (idle
        { demo with acu.waste := [⟨9, some 99, .shutDue⟩], acu.coil := some (.opening, 30), acu.deadTime := 1, acu.lastCoil := none, acu.dead := none })
        = .next t)
    ∧ (∃ t, exec (.flapPulseEnd) (idle
        { demo with acu.waste := [⟨9, some 99, .shutDue⟩], acu.coil := some (.opening, 30), acu.deadTime := 0, acu.lastCoil := none, acu.dead := none })
        = .next t)
    ∧ (∃ t, exec (.deadTimeExpiry) (idle
        { demo with acu.waste := [⟨9, some 99, .shutDue⟩], acu.coil := none, acu.deadTime := 10, acu.lastCoil := some .opening, acu.dead := some 10 })
        = .next t) := by
  refine ⟨runs ((ob.2.2.1 9 99 30 _ ?_ ?_ ?_).1 ?_ ?_),
    runs ((ob.2.2.1 9 99 30 _ ?_ ?_ ?_).2.1 ?_ ?_),
    runs ((ob.2.2.1 9 99 30 _ ?_ ?_ ?_).2.2 ?_ ?_ ?_)⟩ <;> decide +kernel

theorem test_KickLandsPiece_met (ob : Obligations.KickLandsPiece) :
    ∃ t, exec (.kickFiring 0 1025) (idle (pieces assigned (bayed bundle .opened order (taken (.kick 0 1025)
        { demo with ztr.zoneE := ⟨0, 0, [entry 1025]⟩ })))) = .next t := by
  refine runs (((ob.1 0 assigned bundle order (entry 1025) _ ?_ ?_ ?_ ?_ ?_ ?_) ?_ ?_ ?_ ?_ ?_ ?_) ?_) <;> decide +kernel

theorem test_SortCompareAssignsPiece_met (ob : Obligations.SortCompareAssignsPiece) :
    (∃ t, exec (.sortCompare 1025) (idle (pieces { piece .beltE with unsure := true } (taken (.sort 1025) demo))) = .next t)
    ∧ (∃ t, exec (.sortCompare 1025) (idle (pieces { piece .beltE with grade := .W } (taken (.sort 1025) demo))) = .next t)
    ∧ (∃ t, exec (.sortCompare 1025) (idle (pieces { piece .beltE with lead := some 0, area := 30 } (bayed bundle .opened order (taken
        (.sort 1025) demo)))) = .next t)
    ∧ (∃ t, exec (.sortCompare 1025) (idle (pieces { piece .beltE with lead := some 0, area := 970 } (bayed bundle .opened order (taken
        (.sort 1025) demo)))) = .next t) := by
  refine ⟨runs ((ob.1 { piece .beltE with unsure := true } _ ?_ ?_ ?_ ?_ ?_ ?_).1 ?_),
    runs ((ob.1 { piece .beltE with grade := .W } _ ?_ ?_ ?_ ?_ ?_ ?_).1 ?_),
    runs (((ob.1 { piece .beltE with lead := some 0, area := 30 } _ ?_ ?_ ?_ ?_ ?_ ?_).2 ⟨0, 0, 4, 30⟩ bundle order ?_ ?_ ?_ ?_ ?_ ?_) ?_
        ?_),
    runs (((ob.1 { piece .beltE with lead := some 0, area := 970 } _ ?_ ?_ ?_ ?_ ?_ ?_).2 ⟨0, 0, 4, 30⟩ bundle order ?_ ?_ ?_ ?_ ?_ ?_) ?_
        ?_)⟩ <;> decide +kernel

theorem test_DiscardedPlanIsDropped_met (ob : Obligations.PlanWithoutPiecesAndDiscard) :
    ∃ t, exec (.planCompletion) (idle (put 0 (.strip (strip .planning)) { demo with cpl.job := some (job 4010 true) })) = .next t := by
  refine runs ((ob.1 (strip .planning) (job 4010 true) _ ?_ ?_ ?_ ?_ ?_ ?_) ?_) <;> decide +kernel

theorem test_PlanWithoutPiecesRejectsStrip_met (ob : Obligations.PlanWithoutPiecesAndDiscard) :
    (∃ t, exec (.planCompletion) (idle (put 0 (.strip (strip .planning)) { demo with cpl.job := some (job 100 false) })) = .next t)
    ∧ (∃ t, exec (.planCompletion) (idle (put 0 (.strip (strip .planning)) { demo with cpl.job := some (job 4010 false), rst.free := [] }))
        = .next t) := by
  refine ⟨runs (((ob.2 (strip .planning) (job 100 false) _ ?_ ?_ ?_ ?_ ?_ ?_) ?_ ?_).1 ?_),
    runs (((ob.2 (strip .planning) (job 4010 false) _ ?_ ?_ ?_ ?_ ?_ ?_) ?_ ?_).2 ?_ ?_)⟩ <;> decide +kernel

theorem test_PlanCompletionMakesPieces_met (ob : Obligations.PlanCompletionMakesPieces) :
    (∃ t, exec (.planCompletion) (idle (put 0 (.strip (strip .planning)) { demo with cpl.job := some (job 4010 false) })) = .next t)
    ∧ (∃ t, exec (.planCompletion) (idle (bayed bundle .opened order (put 0 (.strip (strip .planning))
        { demo with cpl.job := some (job 4010 false) }))) = .next t) := by
  refine ⟨runs (((ob (strip .planning) (job 4010 false) ⟨0, 1, 300, 3010, .A, 100, 300⟩ 2 ((List.range 1021).map fun n => Fin.ofNat 1024 (n
      + 3)) _ ?_ ?_ ?_ ?_ ?_ ?_) ?_ ?_ ?_ ?_ ?_).1 ?_),
    runs (((ob (strip .planning) (job 4010 false) ⟨0, 1, 300, 3010, .A, 100, 300⟩ 2 ((List.range 1021).map fun n => Fin.ofNat 1024 (n + 3))
        _ ?_ ?_ ?_ ?_ ?_ ?_) ?_ ?_ ?_ ?_ ?_).2 0 order ?_ ?_ ?_)⟩ <;> decide +kernel

theorem test_ScrubReadRepairsSlot_met (ob : Obligations.ScrubReadRepairsSlot) :
    (∃ t, exec (.scrubRead) (idle { demo with rst.scrubPtr := 1023 }) = .next t)
    ∧ (∃ t, exec (.scrubRead) (idle (demo.setSlot 0 ⟨1, .nothing, .single, ⟨1, .nothing⟩, false⟩)) = .next t)
    ∧ (∃ t, exec (.scrubRead) (idle (demo.setSlot 0 ⟨1, .strip (strip .scanning), .single, ⟨1, shadowOf (.strip (strip .scanning))⟩,
        false⟩)) = .next t)
    ∧ (∃ t, exec (.scrubRead) (idle (demo.setSlot 0 ⟨1, .strip (strip .scanning), .good, ⟨1, shadowOf (.strip (strip .scanning))⟩, true⟩)) =
        .next t)
    ∧ (∃ t, exec (.scrubRead) (idle (demo.setSlot 0 ⟨1, .nothing, .single, ⟨1, .nothing⟩, true⟩)) = .next t)
    ∧ (∃ t, exec (.scrubRead) (idle (demo.setSlot 0 ⟨1, .strip (strip .scanning), .single, ⟨1, shadowOf (.strip (strip .scanning))⟩, true⟩))
        = .next t)
    ∧ (∃ t, exec (.scrubRead) (idle (demo.setSlot 0 ⟨3, .nothing, .double, ⟨3, .nothing⟩, false⟩)) = .next t)
    ∧ (∃ t, exec (.scrubRead) (idle (demo.setSlot 0 ⟨2, .nothing, .double, ⟨3, .nothing⟩, false⟩)) = .next t) := by
  refine ⟨runs ((ob _ ?_ ?_).2.1 ?_ ?_),
    runs ((ob _ ?_ ?_).2.2.1 ?_ ?_ ?_),
    runs ((ob _ ?_ ?_).2.2.2.1 ?_ ?_ ?_ ?_),
    runs ((ob _ ?_ ?_).2.2.2.2.1 ?_ ?_ ?_),
    runs ((ob _ ?_ ?_).2.2.2.2.1 ?_ ?_ ?_),
    runs ((ob _ ?_ ?_).2.2.2.2.2 ?_ ?_ ?_ ?_ ?_),
    runs ((ob _ ?_ ?_).1 ?_ ?_ ?_),
    runs ((ob _ ?_ ?_).1 ?_ ?_ ?_)⟩ <;> decide +kernel

theorem test_DoubleErrorCondemnsStrip_met (ob : Obligations.DoubleErrorsCondemnOrClear) :
    (∃ t, exec (.scrubRead) (idle (({ demo with ztr.zoneB := ⟨0, 0, [entry 1024]⟩ } : Part).setSlot 0 ⟨1, .nothing, .double, ⟨1, .strip
        ⟨.scanning, 0, some (.B, 50), none⟩⟩, false⟩)) = .next t)
    ∧ (∃ t, exec (.scrubRead) (idle (({ demo with ztr.zoneB := ⟨0, 0, [entry 1024]⟩ } : Part).setSlot 0 ⟨1, .nothing, .double, ⟨1, .strip
        ⟨.enteringB, 0, some (.B, 50), none⟩⟩, false⟩)) = .next t) := by
  refine ⟨runs (((ob.1 ⟨.scanning, 0, some (.B, 50), none⟩ (entry 1024) 50 _ ?_ ?_ ?_ ?_ ?_ ?_) ?_ ?_ ?_ ?_ ?_ ?_) ?_ ?_),
    runs (((ob.1 ⟨.enteringB, 0, some (.B, 50), none⟩ (entry 1024) 50 _ ?_ ?_ ?_ ?_ ?_ ?_) ?_ ?_ ?_ ?_ ?_ ?_) ?_ ?_)⟩ <;> decide +kernel

theorem test_DoubleErrorClearsLine_met (ob : Obligations.DoubleErrorsCondemnOrClear) :
    ∃ t, exec (.scrubRead) (idle (demo.setSlot 0 ⟨1, .nothing, .double, ⟨1, .nothing⟩, true⟩)) = .next t := by
  refine ends (ob.2.2.2.1 _ ?_ ?_ ?_ ?_ ?_) <;> decide +kernel

theorem test_LineClearRetiresEveryRecord_met (ob : Obligations.LineClearEmptiesEveryBlock) :
    ∃ t, exec (.linclr 0 9) (idle (strips .mapped (pieces (piece .unsorted)
        { demo with ztr.zoneB := ⟨5, 5, [entry 1024]⟩, cpl.queue := [1024] }))) = .next t := by
  refine ends (ob.1 9 _ ?_ ?_ ?_ ?_ (clean_put (clean_put clean_demo))) <;> decide +kernel

theorem test_LineClearCompletionReplies_met (ob : Obligations.LineClearCompletes) :
    ∃ t, exec (.lineClearComplete) (idle
        ({ demo with lif.clear := some ⟨false, some 9, true, none, []⟩, rst.free := Part.reset.rst.free }.setLink 0
        { supervisor with requests := [.request (.linclr 0 9)] })) = .next t := by
  refine ends (ob.1 9 none true _ ?_ ?_ ?_ ?_) <;> decide +kernel

theorem test_AutomaticClearSetsFault_met (ob : Obligations.LineClearCompletes) :
    ∃ t, exec (.lineClearComplete) (idle { demo with lif.clear := some ⟨true, none, true, none, []⟩ }) = .next t := by
  refine ends (ob.2 ⟨true, none, true, none, []⟩ _ ?_ ?_ ?_ ?_ ?_) <;> decide +kernel

theorem test_SignalUpAnnounces_met (ob : Obligations.SignalMovesLinkState) :
    (∃ t, exec (.linkSignalUp 0) (idle (demo.setLink 0 linkReset0)) = .next t)
    ∧ (∃ t, exec (.linkSignalUp 6) (idle (demo.setLink 6 linkReset0)) = .next t)
    ∧ (∃ t, exec (.linkSignalUp 1) (idle (demo.setLink 1
        { station .moulder [5] with signal := false, state := .holding, holdTimer := some 2000 })) = .next t)
    ∧ (∃ t, exec (.linkSignalUp 1) (idle demo) = .next t) := by
  refine ⟨runs ((ob.1 0 _ ?_ ?_).1 ?_ ?_ ?_),
    runs ((ob.1 6 _ ?_ ?_).1 ?_ ?_ ?_),
    runs ((ob.1 1 _ ?_ ?_).2.1 .moulder ?_ ?_ ?_ ?_),
    runs ((ob.1 1 _ ?_ ?_).2.2 ?_)⟩ <;> decide +kernel

theorem test_SignalLossHoldsEnrolledLink_met (ob : Obligations.SignalMovesLinkState) :
    (∃ t, exec (.linkSignalLoss 1) (idle demo) = .next t)
    ∧ (∃ t, exec (.linkSignalLoss 2) (idle demo) = .next t)
    ∧ (∃ t, exec (.linkSignalLoss 6) (idle (demo.setLink 6 { linkReset0 with signal := true, state := .waiting })) = .next t)
    ∧ (∃ t, exec (.linkSignalLoss 6) (idle (demo.setLink 6 { linkReset0 with signal := true, state := .waiting })) = .next t)
    ∧ (∃ t, exec (.linkSignalLoss 0) (idle demo) = .next t)
    ∧ (∃ t, exec (.linkSignalLoss 0) (idle demo) = .next t) := by
  refine ⟨runs ((ob.2.1 1 _ ?_ ?_ ?_ ?_).2.1 ?_ ?_ ?_),
    leaves ((ob.2.1 2 _ ?_ ?_ ?_ ?_).1 ?_),
    runs ((ob.2.1 6 _ ?_ ?_ ?_ ?_).2.2.1 ?_ ?_),
    leaves ((ob.2.1 6 _ ?_ ?_ ?_ ?_).1 ?_),
    runs ((ob.2.1 0 _ ?_ ?_ ?_ ?_).2.2.2 ?_ ?_ ?_),
    leaves ((ob.2.1 0 _ ?_ ?_ ?_ ?_).1 ?_)⟩ <;> decide +kernel

theorem test_HoldExpiryVacatesRole_met (ob : Obligations.LinkResetVacatesRole) :
    (∃ t, exec (.holdTimerExpiry 4) (idle ({ demo with bas := Vector.replicate 8 ⟨.opened, false, true, none⟩ }.setLink 4
        { station .stacker [] with state := .holding, holdTimer := some 1, signal := false })) = .next t)
    ∧ (∃ t, exec (.holdTimerExpiry 4) (idle ({ demo with bas := Vector.replicate 8 ⟨.opened, false, true, none⟩ }.setLink 4
        { station .stacker [] with state := .holding, holdTimer := some 1, signal := false })) = .next t)
    ∧ (∃ t, exec (.holdTimerExpiry 4) (idle ({ demo with bas := Vector.replicate 8 ⟨.opened, false, true, none⟩ }.setLink 4
        { station .stacker [] with state := .holding, holdTimer := some 1, signal := true })) = .next t)
    ∧ (∃ t, exec (.holdTimerExpiry 4) (idle ({ demo with bas := Vector.replicate 8 ⟨.opened, false, true, none⟩ }.setLink 4
        { station .stacker [] with state := .holding, holdTimer := some 1, signal := true })) = .next t) := by
  refine ⟨runs (((ob.1 4 1 _ ?_ ?_ ?_ ?_ ?_).1 ?_).1),
    leaves (((ob.1 4 1 _ ?_ ?_ ?_ ?_ ?_).1 ?_).2),
    runs (((ob.1 4 1 _ ?_ ?_ ?_ ?_ ?_).2 ?_).1),
    leaves (((ob.1 4 1 _ ?_ ?_ ?_ ?_ ?_).2 ?_).2)⟩ <;> decide +kernel

theorem test_LinkrstResetsStationLink_met (ob : Obligations.LinkResetVacatesRole) :
    (∃ t, exec (.linkrst 0 9 0) (idle demo) = .next t)
    ∧ (∃ t, exec (.linkrst 0 9 7) (idle demo) = .next t)
    ∧ (∃ t, exec (.linkrst 0 9 1) (idle (demo.setLink 1
        { station .moulder [5] with signal := false, state := .holding, holdTimer := some 2000 })) = .next t)
    ∧ (∃ t, exec (.linkrst 0 9 1) (idle (demo.setLink 1
        { station .moulder [5] with signal := false, state := .holding, holdTimer := some 2000 })) = .next t)
    ∧ (∃ t, exec (.linkrst 0 9 5) (idle demo) = .next t)
    ∧ (∃ t, exec (.linkrst 0 10 2) (idle demo) = .next t) := by
  refine ⟨answers ((ob.2.1 9 0 _ ?_ ?_ ?_).1 ?_),
    answers ((ob.2.1 9 7 _ ?_ ?_ ?_).1 ?_),
    answers (((ob.2.1 9 1 _ ?_ ?_ ?_).2.1 ?_ ?_ ?_ ?_).1),
    leaves (((ob.2.1 9 1 _ ?_ ?_ ?_).2.1 ?_ ?_ ?_ ?_).2),
    answers (((ob.2.1 9 5 _ ?_ ?_ ?_).2.2 ?_ ?_ ?_ ?_).1),
    leaves (((ob.2.1 10 2 _ ?_ ?_ ?_).2.2 ?_ ?_ ?_ ?_).2)⟩ <;> decide +kernel

theorem test_EnrolTakesRole_met (ob : Obligations.EnrolTakesRole) :
    (∃ t, exec (.enrol 5 9 4 4294967295 []) (idle (demo.setLink 5 { linkReset0 with signal := true, state := .waiting })) = .next t)
    ∧ (∃ t, exec (.enrol 1 9 0 7 [1, 2, 3, 4, 5, 6, 7, 255]) (idle demo) = .next t)
    ∧ (∃ t, exec (.enrol 6 9 4 1 []) (idle (demo.setLink 6 { linkReset0 with signal := true, state := .waiting })) = .next t) := by
  refine ⟨answers (((ob 5 9 4294967295 .labeller [] _ ?_ ?_ ?_ ?_ ?_ ?_) ?_ ?_).1 ?_ ?_),
    answers (((ob 1 9 7 .moulder [1, 2, 3, 4, 5, 6, 7, 255] _ ?_ ?_ ?_ ?_ ?_ ?_) ?_ ?_).2.1 ?_ ?_ ?_),
    answers (((ob 6 9 1 .labeller [] _ ?_ ?_ ?_ ?_ ?_ ?_) ?_ ?_).2.2 5 ?_ ?_)⟩ <;> decide +kernel

theorem test_NtcsetClampsSettings_met (ob : Obligations.NtcsetClampsSettings) :
    ∃ t, exec (.ntcset 0 9 ⟨0, 255, 10001, 9, 201, 51, 10⟩) (idle demo) = .next t := by
  refine answers (ob 9 ⟨0, 255, 10001, 9, 201, 51, 10⟩ _ ?_ ?_ ?_) <;> decide +kernel

theorem test_CountTimersReport_met (ob : Obligations.CountNoticesCoalesce) :
    (∃ t, exec (.cntntcDelayExpiry) (idle { demo with lif.coalesce := some ⟨1, 2, 3, 20, 160⟩ }) = .next t)
    ∧ (∃ t, exec (.cntntcCeilingExpiry) (idle { demo with lif.coalesce := some ⟨1, 2, 3, 20, 160⟩ }) = .next t)
    ∧ (∃ t, exec (.cntntcDelayExpiry) (idle demo) = .next t) := by
  refine ⟨runs ((ob.2 _ List.mem_cons_self _ ?_ ?_).1 ⟨1, 2, 3, 20, 160⟩ ?_ ?_ ?_),
    runs ((ob.2 _ (List.mem_cons_of_mem _ List.mem_cons_self) _ ?_ ?_).1 ⟨1, 2, 3, 20, 160⟩ ?_ ?_ ?_),
    runs ((ob.2 _ List.mem_cons_self _ ?_ ?_).2 ?_)⟩ <;> decide +kernel

theorem test_RecrdReadsRecord_met (ob : Obligations.ReadRequestsAnswerState) :
    (∃ t, exec (.recrd 2 9 1024) (idle (strips .scanning demo)) = .next t)
    ∧ (∃ t, exec (.recrd 0 9 1025) (idle (pieces (piece .lug) demo)) = .next t)
    ∧ (∃ t, exec (.recrd 0 9 0) (idle demo) = .next t) := by
  refine ⟨answers ((ob.1 2 9 _ ?_ ?_ ?_).1 (strip .scanning) ?_),
    answers ((ob.1 0 9 _ ?_ ?_ ?_).2.1 (piece .lug) ?_),
    answers ((ob.1 0 9 _ ?_ ?_ ?_).2.2 0 ?_ ?_)⟩ <;> decide +kernel

theorem test_RecretRemovesSimpleState_met (ob : Obligations.RecretRemovesRecord) :
    (∃ t, exec (.recret 0 9 1024) (idle (strips .mapped { demo with ztr.zoneB := ⟨0, 0, [entry 1024]⟩, cpl.queue := [1024] })) = .next t)
    ∧ (∃ t, exec (.recret 0 9 1025) (idle (pieces (piece .unsorted) { demo with ztr.zoneE := ⟨0, 0, [entry 1025]⟩ })) = .next t) := by
  refine ⟨answers ((ob.1 9 (entry 1024) _ ?_ ?_ ?_).1 (strip .mapped) ?_ ?_ ?_ ?_ ?_ ?_),
    answers ((ob.1 9 (entry 1025) _ ?_ ?_ ?_).2 (piece .unsorted) ?_ ?_ ?_ ?_ ?_)⟩ <;> decide +kernel

theorem test_ErrrdEmptiesCapture_met (ob : Obligations.ReadRequestsAnswerState) :
    (∃ t, exec (.errrd 0 9) (idle demo) = .next t)
    ∧ (∃ t, exec (.errrd 0 9) (idle { demo with rst.capture := some ⟨.damaged, 3, 1027, .rst⟩, rst.overrun := true }) = .next t) := by
  refine ⟨answers ((ob.2.1 9 _ ?_ ?_ ?_).1 ?_),
    answers ((ob.2.1 9 _ ?_ ?_ ?_).2 ⟨.damaged, 3, 1027, .rst⟩ ?_)⟩ <;> decide +kernel

theorem test_ZonrdReadsZone_met (ob : Obligations.ReadRequestsAnswerState) :
    (∃ t, exec (.zonrd 0 9 4 11 63) (idle demo) = .next t)
    ∧ (∃ t, exec (.zonrd 0 9 0 0 64) (idle demo) = .next t)
    ∧ (∃ t, exec (.zonrd 0 9 5 0 0) (idle demo) = .next t)
    ∧ (∃ t, exec (.zonrd 0 9 0 1 0) (idle demo) = .next t) := by
  refine ⟨zonAnswers ((ob.2.2.1 9 4 11 63 _ ?_ ?_ ?_).1 .E (.kicks 7) ?_ ?_ ?_),
    answers ((ob.2.2.1 9 0 0 64 _ ?_ ?_ ?_).2 (.inr (.inr ?_))),
    answers ((ob.2.2.1 9 5 0 0 _ ?_ ?_ ?_).2 (.inl ?_)),
    answers ((ob.2.2.1 9 0 1 0 _ ?_ ?_ ?_).2 (.inr (.inl ⟨.A, ?_, ?_⟩)))⟩ <;> decide +kernel

theorem test_MapnextNamesScanningStrip_met (ob : Obligations.ReadRequestsAnswerState) :
    (∃ t, exec (.mapnext 2 9) (idle (put 0 (.strip { strip .scanning with deadline := some 30050 })
        { demo with ztr.zoneB := ⟨5000, 5000, [entry 1024]⟩ })) = .next t)
    ∧ (∃ t, exec (.mapnext 2 9) (idle demo) = .next t) := by
  refine ⟨answers ((ob.2.2.2.1 2 9 _ ?_ ?_ ?_).1 { strip .scanning with deadline := some 30050 } (entry 1024) 4010 30050 ?_ ?_ ?_ ?_ ?_ ?_),
    answers ((ob.2.2.2.1 2 9 _ ?_ ?_ ?_).2 ?_)⟩ <;> decide +kernel

theorem test_OrdrdReadsOrder_met (ob : Obligations.ReadRequestsAnswerState) :
    (∃ t, exec (.ordrd 0 9 0 31) (idle demo) = .next t)
    ∧ (∃ t, exec (.ordrd 0 9 0 32) (idle demo) = .next t)
    ∧ (∃ t, exec (.ordrd 0 9 1 77) (idle (bayed bundle .opened order demo)) = .next t)
    ∧ (∃ t, exec (.ordrd 0 9 1 99999) (idle demo) = .next t) := by
  refine ⟨answers ((ob.2.2.2.2.1 9 0 _ ?_ ?_ ?_).1 31),
    answers ((ob.2.2.2.2.1 9 32 _ ?_ ?_ ?_).2.1 ?_),
    answers ((ob.2.2.2.2.1 9 77 _ ?_ ?_ ?_).2.2.1 0 ?_ ?_ ?_),
    answers ((ob.2.2.2.2.1 9 99999 _ ?_ ?_ ?_).2.2.2 ?_ ?_ ?_)⟩ <;> decide +kernel

theorem test_LblrdReadsLabel_met (ob : Obligations.ReadRequestsAnswerState) :
    (∃ t, exec (.lblrd 5 9 1) (idle (bayed { bundle with label := some ⟨1, 77, 1, 1, .A, 1, 900, [(300, 1)], true, false, labelDigits 77⟩ }
        .full order demo)) = .next t)
    ∧ (∃ t, exec (.lblrd 5 9 1) (idle (bayed bundle .opened order demo)) = .next t)
    ∧ (∃ t, exec (.lblrd 5 9 9) (idle demo) = .next t) := by
  refine ⟨answers ((ob.2.2.2.2.2.1 5 9 0 0 _ ?_ ?_ ?_).1
      { bundle with label := some ⟨1, 77, 1, 1, .A, 1, 900, [(300, 1)], true, false, labelDigits 77⟩ } ⟨1, 77, 1, 1, .A, 1, 900, [(300, 1)],
      true, false, labelDigits 77⟩ ?_ ?_ ?_),
    answers ((ob.2.2.2.2.2.1 5 9 0 0 _ ?_ ?_ ?_).2.1 ?_),
    answers ((ob.2.2.2.2.2.1 5 9 9 0 _ ?_ ?_ ?_).2.2 ?_)⟩ <;> decide +kernel

theorem test_CntrdReadsCounters_met (ob : Obligations.ReadRequestsAnswerState) :
    ∃ t, exec (.cntrd 0 9) (idle demo) = .next t := by
  refine answers (ob.2.2.2.2.2.2 9 _ ?_ ?_ ?_) <;> decide +kernel

theorem test_GeoldReplacesGeometry_met (ob : Obligations.GeometryAndGradeTablesLoad) :
    (∃ t, exec (.geold 0 9 geometry) (idle { demo with cpl.run := false, cpl.permit := false }) = .next t)
    ∧ (∃ t, exec (.geold 0 9 { geometry with nTen := 20 }) (idle { demo with cpl.run := false, cpl.permit := false }) = .next t)
    ∧ (∃ t, exec (.geold 0 9 geometry) (idle { demo with acu.lastCut := some 0 }) = .next t) := by
  refine ⟨answers ((ob.1 9 geometry _ ?_ ?_ ?_).1 ⟨by decide +kernel, by intro z; cases z <;> rfl, rfl, rfl, rfl⟩ ?_),
    answers ((ob.1 9 { geometry with nTen := 20 } _ ?_ ?_ ?_).2.1 ⟨by decide +kernel, by intro z; cases z <;> rfl, rfl, rfl, rfl⟩ ?_),
    answers ((ob.1 9 geometry _ ?_ ?_ ?_).2.2 (fun h => absurd h.2.2.2.2 nofun))⟩ <;> decide +kernel

theorem test_GrdldReplacesGradeTable_met (ob : Obligations.GeometryAndGradeTablesLoad) :
    (∃ t, exec (.grdld 0 9 8 limits) (idle (strips .scanning demo)) = .next t)
    ∧ (∃ t, exec (.grdld 0 9 1 limits) (idle (strips .scanning demo)) = .next t) := by
  refine ⟨answers (((ob.2 9 8 limits _ ?_ ?_ ?_ ?_ ?_ ?_) ?_).1 ?_),
    answers (((ob.2 9 1 limits _ ?_ ?_ ?_ ?_ ?_ ?_) ?_).2 ?_)⟩ <;> decide +kernel

theorem test_ContextRequestsLoadAndSelect_met (ob : Obligations.ContextAndRunRequests) :
    (∃ t, exec (.ctxld 0 9 3 profile) (idle demo) = .next t)
    ∧ (∃ t, exec (.ctxld 0 9 3 { profile with kerf := 9 }) (idle demo) = .next t)
    ∧ (∃ t, exec (.ctxld 0 9 0 profile) (idle demo) = .next t)
    ∧ (∃ t, exec (.ctxsel 0 9 0) (idle { demo with cpl.active := 2 }) = .next t)
    ∧ (∃ t, exec (.ctxsel 0 9 3) (idle demo) = .next t) := by
  refine ⟨answers ((ob.1 9 3 profile _ ?_ ?_ ?_).1 ?_ ?_ ?_),
    answers ((ob.1 9 3 { profile with kerf := 9 } _ ?_ ?_ ?_).2.1 ?_ ?_ ?_),
    answers ((ob.1 9 0 profile _ ?_ ?_ ?_).2.2.1 ?_ ?_),
    answers ((ob.1 9 0 profile _ ?_ ?_ ?_).2.2.2.1 ?_ ?_),
    answers ((ob.1 9 3 profile _ ?_ ?_ ?_).2.2.2.2 ?_ ?_)⟩ <;> decide +kernel

theorem test_LingoAndLinstpSetRun_met (ob : Obligations.ContextAndRunRequests) :
    (∃ t, exec (.lingo 0 9) (idle { demo with cpl.run := false }) = .next t)
    ∧ (∃ t, exec (.linstp 0 9) (idle demo) = .next t) := by
  refine ⟨answers ((ob.2.1 9 _ ?_ ?_).1 ?_),
    answers ((ob.2.1 9 _ ?_ ?_).2 ?_)⟩ <;> decide +kernel

theorem test_MappostQueuesStrip_met (ob : Obligations.MappostQueuesOrRejectsStrip) :
    (∃ t, exec (.mappost 2 9 ⟨1024, 4060, [⟨0, 100, 15, 100⟩], false⟩) (idle (strips .scanning
        { demo with cpl.job := some (job 1 false), cpl.queue := List.replicate 31 7 })) = .next t)
    ∧ (∃ t, exec (.mappost 2 9 ⟨1024, 4060, [⟨0, 100, 15, 100⟩], false⟩) (idle (strips .scanning demo)) = .next t) := by
  refine ⟨answers (((ob.1 2 9 4010 (strip .scanning) ⟨1024, 4060, [⟨0, 100, 15, 100⟩], false⟩ _ ?_ ?_ ?_ ?_ ?_ ?_) ?_ ?_ ?_ ?_ ?_ ?_).1 (job
      1 false) ?_ ?_),
    answers (((ob.1 2 9 4010 (strip .scanning) ⟨1024, 4060, [⟨0, 100, 15, 100⟩], false⟩ _ ?_ ?_ ?_ ?_ ?_ ?_) ?_ ?_ ?_ ?_ ?_ ?_).2 ?_ ?_)⟩
        <;> decide +kernel

theorem test_MappostRefusesOrRejects_met (ob : Obligations.MappostQueuesOrRejectsStrip) :
    (∃ t, exec (.mappost 2 9 ⟨1024, 4010, [⟨0, 100, 15, 100⟩], false⟩) (idle (put 0 (.strip { strip .rejecting with reject := some .noMap })
        demo)) = .next t)
    ∧ (∃ t, exec (.mappost 2 9 ⟨1024, 4010, [⟨0, 100, 15, 100⟩], false⟩) (idle (strips .rejecting demo)) = .next t)
    ∧ (∃ t, exec (.mappost 2 9 ⟨1024, 4061, [⟨0, 100, 15, 100⟩], false⟩) (idle (strips .scanning demo)) = .next t)
    ∧ (∃ t, exec (.mappost 2 9 ⟨1024, 3960, [⟨0, 100, 15, 100⟩], true⟩) (idle (strips .scanning demo)) = .next t)
    ∧ (∃ t, exec (.mappost 2 9 ⟨1024, 3960, [⟨0, 100, 15, 100⟩], false⟩) (idle (strips .scanning
        { demo with cpl.queue := List.replicate 32 7 })) = .next t) := by
  refine ⟨answers (((ob.2 2 9 4010 { strip .rejecting with reject := some .noMap } ⟨1024, 4010, [⟨0, 100, 15, 100⟩], false⟩ _ ?_ ?_ ?_ ?_ ?_
      ?_) ?_ ?_).1 ?_ ?_),
    answers (((ob.2 2 9 4010 (strip .rejecting) ⟨1024, 4010, [⟨0, 100, 15, 100⟩], false⟩ _ ?_ ?_ ?_ ?_ ?_ ?_) ?_ ?_).2.1 ?_ ?_),
    answers (((ob.2 2 9 4010 (strip .scanning) ⟨1024, 4061, [⟨0, 100, 15, 100⟩], false⟩ _ ?_ ?_ ?_ ?_ ?_ ?_) ?_ ?_).2.2.1 ?_ ?_),
    answers (((ob.2 2 9 4010 (strip .scanning) ⟨1024, 3960, [⟨0, 100, 15, 100⟩], true⟩ _ ?_ ?_ ?_ ?_ ?_ ?_) ?_ ?_).2.2.2.1 ?_ ?_ ?_),
    answers (((ob.2 2 9 4010 (strip .scanning) ⟨1024, 3960, [⟨0, 100, 15, 100⟩], false⟩ _ ?_ ?_ ?_ ?_ ?_ ?_) ?_ ?_).2.2.2.2 ?_ ?_ ?_ ?_)⟩
        <;> decide +kernel

theorem test_OrdadmAdmitsOrder_met (ob : Obligations.OrdadmAdmitsOrder) :
    (∃ t, exec (.ordadm 0 9 ⟨99999, 1, 0, [300], 1000, 100, 200, 50, 1, 4⟩) (idle (heldBays demo)) = .next t)
    ∧ (∃ t, exec (.ordadm 0 9 ⟨99999, 1, 0, [300], 1000, 100, 200, 50, 1, 4⟩) (idle
        ({ demo with bas := (Vector.replicate 8 ⟨.idle, true, false, none⟩).set 7 ⟨.idle, false, false, none⟩ })) = .next t)
    ∧ (∃ t, exec (.ordadm 0 9 ⟨77, 1, 0, [300], 1000, 100, 200, 50, 1, 4⟩) (idle (bayed bundle .opened order demo)) = .next t)
    ∧ (∃ t, exec (.ordadm 0 9 ⟨99999, 1, 0, [300], 1000, 100, 200, 50, 1, 4⟩) (idle
        { demo with ort := ⟨Vector.replicate 32 (some order), 32⟩ }) = .next t) := by
  refine ⟨answers (((ob 9 ⟨99999, 1, 0, [300], 1000, 100, 200, 50, 1, 4⟩ .A _ ?_ ?_ ?_ ?_ ?_ ?_).1 0 ?_ ?_).1 ?_),
    answers (((ob 9 ⟨99999, 1, 0, [300], 1000, 100, 200, 50, 1, 4⟩ .A _ ?_ ?_ ?_ ?_ ?_ ?_).1 0 ?_ ?_).2 7 ?_ ?_ ?_ ?_),
    answers ((ob 9 ⟨77, 1, 0, [300], 1000, 100, 200, 50, 1, 4⟩ .A _ ?_ ?_ ?_ ?_ ?_ ?_).2.1 0 order ?_ ?_),
    answers ((ob 9 ⟨99999, 1, 0, [300], 1000, 100, 200, 50, 1, 4⟩ .A _ ?_ ?_ ?_ ?_ ?_ ?_).2.2 ?_ ?_)⟩ <;> decide +kernel

theorem test_OrdamdSetsBundlesOrdered_met (ob : Obligations.OrdamdSetsBundlesOrdered) :
    (∃ t, exec (.ordamd 0 9 77 9999) (idle (bayed bundle .opened order demo)) = .next t)
    ∧ (∃ t, exec (.ordamd 0 9 77 1) (idle (bayed bundle .opened { order with retired := 1 } demo)) = .next t)
    ∧ (∃ t, exec (.ordamd 0 9 77 2) (idle (bayed bundle .opened { order with state := .complete, ordered := 1, retired := 1 } demo)) = .next
        t)
    ∧ (∃ t, exec (.ordamd 0 9 77 1) (idle (bayed bundle .opened { order with opened := 2 } demo)) = .next t)
    ∧ (∃ t, exec (.ordamd 0 9 77 1) (idle (bayed bundle .opened { order with state := .cancelled } demo)) = .next t) := by
  refine ⟨answers (((ob 9 77 9999 0 order _ ?_ ?_ ?_ ?_ ?_ ?_) ?_ ?_).1 ?_ ?_ ?_),
    answers (((ob 9 77 1 0 { order with retired := 1 } _ ?_ ?_ ?_ ?_ ?_ ?_) ?_ ?_).2.1 ?_ ?_ ?_ ?_),
    answers (((ob 9 77 2 0 { order with state := .complete, ordered := 1, retired := 1 } _ ?_ ?_ ?_ ?_ ?_ ?_) ?_ ?_).2.2.1 ?_ ?_ ?_),
    answers (((ob 9 77 1 0 { order with opened := 2 } _ ?_ ?_ ?_ ?_ ?_ ?_) ?_ ?_).2.2.2.1 ?_ ?_),
    answers (((ob 9 77 1 0 { order with state := .cancelled } _ ?_ ?_ ?_ ?_ ?_ ?_) ?_ ?_).2.2.2.2 ?_)⟩ <;> decide +kernel

theorem test_OrdcanCancelsOrder_met (ob : Obligations.OrdcanAndOrdremEndOrders) :
    (∃ t, exec (.ordcan 0 9 77) (idle
        { demo with bas := Vector.replicate 8 ⟨.idle, true, false, none⟩, ort := ⟨(Vector.replicate 32 none).set 0 (some order), 1⟩ }) =
        .next t)
    ∧ (∃ t, exec (.ordcan 0 9 77) (idle (bayed bundle .opened order demo)) = .next t)
    ∧ (∃ t, exec (.ordcan 0 9 77) (idle
        { demo with bas := Vector.replicate 8 ⟨.idle, true, false, none⟩, ort := ⟨(Vector.replicate 32 none).set 0 (some { order with state := .complete }), 1⟩ })
        = .next t)
    ∧ (∃ t, exec (.ordcan 0 9 78) (idle
        { demo with bas := Vector.replicate 8 ⟨.idle, true, false, none⟩, ort := ⟨(Vector.replicate 32 none).set 0 (some { order with state := .complete }), 1⟩ })
        = .next t) := by
  refine ⟨answers (((ob.1 9 77 _ ?_ ?_ ?_).1 0 order ?_ ?_).1 ?_ ?_ ?_),
    answers (((ob.1 9 77 _ ?_ ?_ ?_).1 0 order ?_ ?_).2.1 0 bundle ?_ ?_ ?_ ?_ ?_ ?_),
    answers (((ob.1 9 77 _ ?_ ?_ ?_).1 0 { order with state := .complete } ?_ ?_).2.2 ?_),
    answers ((ob.1 9 78 _ ?_ ?_ ?_).2 ?_)⟩ <;> decide +kernel

theorem test_OrdremEmptiesSlot_met (ob : Obligations.OrdcanAndOrdremEndOrders) :
    (∃ t, exec (.ordrem 0 9 77) (idle
        { demo with bas := Vector.replicate 8 ⟨.idle, true, false, none⟩, ort := ⟨(Vector.replicate 32 none).set 0 (some { order with state := .complete }), 1⟩ })
        = .next t)
    ∧ (∃ t, exec (.ordrem 0 9 77) (idle
        { demo with bas := Vector.replicate 8 ⟨.idle, true, false, none⟩, ort := ⟨(Vector.replicate 32 none).set 0 (some { order with state := .complete }), 1⟩ })
        = .next t)
    ∧ (∃ t, exec (.ordrem 0 9 77) (idle
        { demo with bas := Vector.replicate 8 ⟨.idle, true, false, none⟩, ort := ⟨(Vector.replicate 32 none).set 0 (some order), 1⟩ }) =
        .next t)
    ∧ (∃ t, exec (.ordrem 0 9 78) (idle
        { demo with bas := Vector.replicate 8 ⟨.idle, true, false, none⟩, ort := ⟨(Vector.replicate 32 none).set 0 (some order), 1⟩ }) =
        .next t) := by
  refine ⟨answers (((ob.2 9 77 _ ?_ ?_ ?_).1 0 { order with state := .complete } ?_ ?_).1 ?_),
    ends (((ob.2 9 77 _ ?_ ?_ ?_).1 0 { order with state := .complete } ?_ ?_).2.1 ?_ ?_ ?_),
    answers (((ob.2 9 77 _ ?_ ?_ ?_).1 0 order ?_ ?_).2.2 ?_),
    answers ((ob.2 9 78 _ ?_ ?_ ?_).2 ?_)⟩ <;> decide +kernel

theorem test_BayhldHoldsBay_met (ob : Obligations.HoldRequestsChangeBay) :
    (∃ t, exec (.bayhld 4 9 8) (idle (heldBays demo)) = .next t)
    ∧ (∃ t, exec (.bayhld 0 9 1) (idle demo) = .next t)
    ∧ (∃ t, exec (.bayhld 4 9 1) (idle (pieces assigned ((bayed bundle .opened order demo).setKickQueue 0 [⟨4900, 1025⟩]))) = .next t) := by
  refine ⟨answers ((ob.1 4 9 7 _ ?_ ?_ ?_).1 ?_),
    answers ((ob.1 0 9 0 _ ?_ ?_ ?_).2.1 ?_ ?_ ?_),
    answers (((ob.1 4 9 0 _ ?_ ?_ ?_).2.2 ⟨4900, 1025⟩ assigned bundle order ?_ ?_ ?_ ?_ ?_ ?_) ?_ ?_)⟩ <;> decide +kernel

theorem test_BayrelReleasesBay_met (ob : Obligations.HoldRequestsChangeBay) :
    (∃ t, exec (.bayrel 4 9 1) (idle (heldBays demo)) = .next t)
    ∧ (∃ t, exec (.bayrel 0 9 8) (idle
        { demo with bas := Vector.replicate 8 ⟨.idle, true, false, none⟩, ort := ⟨(Vector.replicate 32 none).set 0 (some order), 1⟩ }) =
        .next t) := by
  refine ⟨answers ((ob.2.2 4 9 0 _ ?_ ?_ ?_).1 ?_),
    answers ((ob.2.2 0 9 7 _ ?_ ?_ ?_).2 0 order ?_ ?_ ?_ ?_ ?_ ?_)⟩ <;> decide +kernel

theorem test_BayclsForcesClose_met (ob : Obligations.BayclsForcesCloseAndReports) :
    (∃ t, exec (.baycls 0 9 1) (idle (bayed bundle .opened order demo)) = .next t)
    ∧ (∃ t, exec (.baycls 0 9 1) (idle (bayed { bundle with transit := 0, landed := 900, count := 3 } .opened order demo)) = .next t)
    ∧ (∃ t, exec (.baycls 0 9 1) (idle (({ bayed { bundle with transit := 0 } .opened order demo with inReset := false } : Part).setBay 0
        ⟨.opened, true, false, some { bundle with transit := 0 }⟩)) = .next t)
    ∧ (∃ t, exec (.baycls 0 9 1) (idle (bayed bundle .closing order demo)) = .next t) := by
  refine ⟨answers (((ob.1 9 0 _ ?_ ?_ ?_).1 bundle order ?_ ?_ ?_).1 ?_),
    answers (((ob.1 9 0 _ ?_ ?_ ?_).1 { bundle with transit := 0, landed := 900, count := 3 } order ?_ ?_ ?_).2.1 ?_ ?_ ?_ ?_),
    answers (((ob.1 9 0 _ ?_ ?_ ?_).1 { bundle with transit := 0 } order ?_ ?_ ?_).2.2 ?_ ?_ ?_ ?_),
    answers ((ob.1 9 0 _ ?_ ?_ ?_).2 ?_)⟩ <;> decide +kernel

theorem test_FullBaySendsBdlrdy_met (ob : Obligations.BayclsForcesCloseAndReports) :
    ∃ t, exec (.baycls 0 9 1) (idle (bayed { bundle with transit := 0, landed := 900, count := 3 } .opened order demo)) = .next t := by
  refine ends (((ob.2 9 0 { bundle with transit := 0, landed := 900, count := 3 } order 5 _ ?_ ?_ ?_ ?_ ?_ ?_) ?_ ?_ ?_ ?_ ?_ ?_) ?_ ?_ ?_
      ?_) <;> decide +kernel

theorem test_BdlretRetiresBundle_met (ob : Obligations.BdlretRetiresBundle) :
    (∃ t, exec (.bdlret 5 9 1 77 1) (idle ((bayed { bundle with transit := 0, landed := 900 } .full order demo).setBay 0 ⟨.full, true,
        false, some { bundle with transit := 0, landed := 900 }⟩)) = .next t)
    ∧ (∃ t, exec (.bdlret 5 9 1 77 1) (idle ((bayed { bundle with transit := 0, landed := 900 } .full { order with ordered := 1 }
        demo).setBay 0 ⟨.full, true, false, some { bundle with transit := 0, landed := 900 }⟩)) = .next t)
    ∧ (∃ t, exec (.bdlret 5 9 1 77 1) (idle ((bayed { bundle with transit := 0, landed := 900 } .full { order with state := .cancelling }
        demo).setBay 0 ⟨.full, true, false, some { bundle with transit := 0, landed := 900 }⟩)) = .next t)
    ∧ (∃ t, exec (.bdlret 5 9 1 77 9999) (idle (bayed { bundle with transit := 0, landed := 900 } .full order demo)) = .next t)
    ∧ (∃ t, exec (.bdlret 5 9 1 77 1) (idle (bayed bundle .opened order demo)) = .next t) := by
  refine ⟨answers ((((ob 5 9 77 1 0 _ ?_ ?_ ?_ ?_ ?_ ?_) ?_).1 { bundle with transit := 0, landed := 900 } order ?_ ?_ ?_ ?_ ?_ ?_) ?_ ?_),
    answers ((((ob 5 9 77 1 0 _ ?_ ?_ ?_ ?_ ?_ ?_) ?_).1 { bundle with transit := 0, landed := 900 } { order with ordered := 1 } ?_ ?_ ?_ ?_
        ?_ ?_) ?_ ?_),
    answers ((((ob 5 9 77 1 0 _ ?_ ?_ ?_ ?_ ?_ ?_) ?_).1 { bundle with transit := 0, landed := 900 } { order with state := .cancelling } ?_
        ?_ ?_ ?_ ?_ ?_) ?_ ?_),
    answers (((ob 5 9 77 9999 0 _ ?_ ?_ ?_ ?_ ?_ ?_) ?_).2.1 { bundle with transit := 0, landed := 900 } ?_ ?_ ?_),
    answers (((ob 5 9 77 1 0 _ ?_ ?_ ?_ ?_ ?_ ?_) ?_).2.2 ?_)⟩ <;> decide +kernel

theorem test_WholeRequestJoinsList_met (ob : Obligations.FrameReceivedQueuesRequest) :
    ∃ t, exec (.frameReceived 0 (frameBytes 1 0x10 9 [4#8, 0#8])) (idle demo) = .next t := by
  refine ends ((ob.1 0 (.recrd 0 9 1024) 0x10 9 [4#8, 0#8] _ ?_ ?_ ?_ ?_ ?_ ?_) ?_ ?_) <;> decide +kernel

theorem test_ByteTimeoutDiscardsFrame_met (ob : Obligations.LinkLinesEmptyTheirLists) :
    ∃ t, exec (.frameByteTimeout 1) (idle (demo.setLink 1 { station .moulder [5] with rx := [0xD4#8, 1#8] })) = .next t := by
  refine runs (ob.1 1 [1#8] _ ?_ ?_ ?_ ?_ ?_ ?_) <;> decide +kernel

theorem test_SentFrameLeavesTransmitList_met (ob : Obligations.LinkLinesEmptyTheirLists) :
    (∃ t, exec (.transmitFrameSent 1) (idle (demo.setLink 1 { station .moulder [5] with transmit := [⟨.reply, 1, 9, [.u8 0]⟩] })) = .next t)
    ∧ (∃ t, exec (.transmitFrameSent 1) (idle (permitted.setLink 1 { station .moulder [5] with transmit := [⟨.reply, 1, 9, [.u8 0]⟩] })) =
        .next t) := by
  refine ⟨runs ((ob.2.2.1 1 ⟨.reply, 1, 9, [.u8 0]⟩ [] _ ?_ ?_ ?_).1),
    leaves ((ob.2.2.1 1 ⟨.reply, 1, 9, [.u8 0]⟩ [] _ ?_ ?_ ?_).2 ?_ ?_)⟩ <;> decide +kernel

theorem test_RefusedRequestChangesNothing_met (ob : Obligations.RefusedRequestChangesNothing) :
    (∃ t, exec (.recrd 6 9 1024) (idle (demo.setLink 6 { linkReset0 with signal := true, state := .waiting })) = .next t)
    ∧ (∃ t, exec (.lingo 1 9) (idle demo) = .next t) := by
  refine ⟨ends ((ob (.recrd 6 9 1024) 6 0x10 9 [4#8, 0#8] _ ?_ ?_ ?_ ?_ ?_ ?_).1 ?_),
    ends ((ob (.lingo 1 9) 1 0x23 9 [] _ ?_ ?_ ?_ ?_ ?_ ?_).2 ?_ ?_)⟩ <;> decide +kernel

theorem test_FullListDiscardsRequest_met (ob : Obligations.FrameReceivedQueuesRequest) :
    ∃ t, exec (.frameReceived 0 (frameBytes 1 0x10 9 [4#8, 0#8])) (idle (demo.setLink 0
        { supervisor with requests := List.replicate 8 (.request (.cntrd 0 1)) })) = .next t := by
  refine runs ((ob.2 0 (.recrd 0 9 1024) 0x10 9 [4#8, 0#8] _ ?_ ?_ ?_ ?_ ?_ ?_) ?_ ?_ ?_) <;> decide +kernel

theorem test_FullTransmitListDropsNotice_met (ob : Obligations.LinkLinesEmptyTheirLists) :
    (∃ t, exec (.cntntcDelayExpiry) (idle (({ demo with lif.coalesce := some ⟨1, 2, 3, 20, 160⟩ } : Part).setLink 0
        { supervisor with transmit := List.replicate 56 ⟨.notice, 0x80, 0, []⟩ })) = .next t)
    ∧ (∃ t, exec (.cntntcDelayExpiry) (idle (({ demo with lif.coalesce := some ⟨1, 2, 3, 20, 160⟩ } : Part).setLink 0
        { supervisor with transmit := List.replicate 56 ⟨.notice, 0x80, 0, []⟩ })) = .next t) := by
  refine ⟨runs ((ob.2.2.2 _ List.mem_cons_self ⟨1, 2, 3, 20, 160⟩ _ ?_ ?_ ?_ ?_ ?_ ?_).1),
    leaves ((ob.2.2.2 _ List.mem_cons_self ⟨1, 2, 3, 20, 160⟩ _ ?_ ?_ ?_ ?_ ?_ ?_).2 ?_)⟩ <;> decide +kernel

theorem test_ReverseBeyondLimitMarksEachState_met (ob : Obligations.ZoneStepsCount) :
    (∃ t, exec (.zoneReverseStep .B) (idle (strips .enteringB { demo with ztr.zoneB := ⟨1, 201, [entry 1024]⟩ })) = .next t)
    ∧ (∃ t, exec (.zoneReverseStep .B) (idle (strips .planning { demo with ztr.zoneB := ⟨1, 201, [entry 1024]⟩ })) = .next t)
    ∧ (∃ t, exec (.zoneReverseStep .B) (idle (strips .rejecting { demo with ztr.zoneB := ⟨1, 201, [entry 1024]⟩ })) = .next t)
    ∧ (∃ t, exec (.zoneReverseStep .B) (idle (pieces (piece .planned) (put 0 (.strip plannedStrip)
        { demo with ztr.zoneB := ⟨1, 201, [entry 1024]⟩ }))) = .next t)
    ∧ (∃ t, exec (.zoneReverseStep .C) (idle (pieces (piece .beltC) (strips .cutting
        { demo with ztr.zoneC := ⟨1, 201, [entry 1025]⟩, ztr.cutList := [⟨1024, 7⟩] }))) = .next t)
    ∧ (∃ t, exec (.zoneReverseStep .E) (idle (pieces (piece .beltE) { demo with ztr.zoneE := ⟨1, 201, [entry 1025]⟩ })) = .next t)
    ∧ (∃ t, exec (.zoneReverseStep .E) (idle (pieces (piece .unsorted) { demo with ztr.zoneE := ⟨1, 201, [entry 1025]⟩ })) = .next t)
    ∧ (∃ t, exec (.zoneReverseStep .E) (idle (pieces assigned ((bayed bundle .opened order
        { demo with ztr.zoneE := ⟨1, 201, [entry 1025]⟩ }).setKickQueue 0 [⟨4900, 1025⟩]))) = .next t) := by
  refine ⟨runs (((ob.2.2.2 (entry 1024) _ ?_ ?_ ?_).1 (strip .enteringB) ?_ ?_ ?_ ?_).1 ?_),
    runs (((ob.2.2.2 (entry 1024) _ ?_ ?_ ?_).1 (strip .planning) ?_ ?_ ?_ ?_).1 ?_),
    runs (((ob.2.2.2 (entry 1024) _ ?_ ?_ ?_).1 (strip .rejecting) ?_ ?_ ?_ ?_).2.1 ?_),
    runs ((((ob.2.2.2 (entry 1024) _ ?_ ?_ ?_).1 plannedStrip ?_ ?_ ?_ ?_).2.2 (piece .planned) ⟨some 1025, 0, 1, 3010⟩ 100 ?_ ?_ ?_ ?_ ?_
        ?_) ?_),
    runs (((ob.2.2.2 (entry 1025) _ ?_ ?_ ?_).2.1 (strip .cutting) (piece .beltC) 7 ?_ ?_ ?_ ?_ ?_ ?_) ?_ ?_ ?_),
    runs (((ob.2.2.2 (entry 1025) _ ?_ ?_ ?_).2.2 (piece .beltE) ?_ ?_ ?_ ?_).1 ?_),
    runs (((ob.2.2.2 (entry 1025) _ ?_ ?_ ?_).2.2 (piece .unsorted) ?_ ?_ ?_ ?_).1 ?_),
    runs (((ob.2.2.2 (entry 1025) _ ?_ ?_ ?_).2.2 assigned ?_ ?_ ?_ ?_).2 0 bundle order ?_ ?_ ?_ ?_ ?_ ?_)⟩ <;> decide +kernel

theorem test_CaptureOutOfOrderOrOntoFullQueue_met (ob : Obligations.EdgesChangeTheirEye) :
    (∃ t, exec (.aEyeLeadingEdge) (idle { demo with ztr.zoneA := ⟨0, 0, [entry 7]⟩ }) = .next t)
    ∧ (∃ t, exec (.aEyeLeadingEdge) (idle { demo with ztr.zoneA := ⟨1, 1, List.replicate 32 (entry 7)⟩, cpl.permit := true }) = .next t)
    ∧ (∃ t, exec (.aEyeLeadingEdge) (idle { demo with ztr.zoneA := ⟨1, 1, List.replicate 32 (entry 7)⟩, cpl.permit := true }) = .next t)
    ∧ (∃ t, exec (.bEyeLeadingEdge) (idle { demo with ztr.zoneA := ⟨100, 100, [entry 1024]⟩, ztr.zoneB := ⟨8388608, 8388608, [entry 7]⟩ }) =
        .next t)
    ∧ (∃ t, exec (.bEyeLeadingEdge) (idle { demo with ztr.zoneB := ⟨1, 1, List.replicate 32 (entry 7)⟩ }) = .next t)
    ∧ (∃ t, exec (.bEyeLeadingEdge) (idle
        { demo with ztr.zoneB := ⟨1, 1, List.replicate 32 (entry 7)⟩, ztr.zoneA := ⟨100, 100, [⟨none, 0, 0, 100, .none⟩]⟩ }) = .next t)
    ∧ (∃ t, exec (.bEyeLeadingEdge) (idle (strips .inA
        { demo with ztr.zoneB := ⟨1, 1, List.replicate 32 (entry 7)⟩, ztr.zoneA := ⟨100, 100, [entry 1024]⟩ })) = .next t)
    ∧ (∃ t, exec (.lugPulse true) (idle (pieces (piece .beltC)
        { demo with ztr.zoneD := ⟨65535, 0, List.replicate 64 ⟨none, 65535, 0, 0, .none⟩⟩, ztr.zoneC := ⟨100, 100, [entry 1025]⟩ })) = .next
        t)
    ∧ (∃ t, exec (.eEyeLeadingEdge) (idle { demo with ztr.zoneE := ⟨1, 1, List.replicate 64 (entry 7)⟩ }) = .next t) := by
  refine ⟨runs (((ob.2.2 (entry 7) _ ?_ ?_ ?_ ?_).1 ?_ ?_).1 ?_),
    runs ((((ob.2.2 (entry 7) _ ?_ ?_ ?_ ?_).1 ?_ ?_).2 ?_ ?_ ?_).1),
    ends ((((ob.2.2 (entry 7) _ ?_ ?_ ?_ ?_).1 ?_ ?_).2 ?_ ?_ ?_).2 ?_ ?_ ?_),
    runs (((ob.2.2 (entry 7) _ ?_ ?_ ?_ ?_).2 captureAB (.head _) ?_ ?_).1 ?_),
    runs ((((ob.2.2 (entry 7) _ ?_ ?_ ?_ ?_).2 captureAB (.head _) ?_ ?_).2 ?_ ?_ ?_).1 ?_),
    runs (((((ob.2.2 (entry 7) _ ?_ ?_ ?_ ?_).2 captureAB (.head _) ?_ ?_).2 ?_ ?_ ?_).2 ⟨none, 0, 0, 100, .none⟩ ?_ ?_).1 ?_),
    runs (((((ob.2.2 (entry 7) _ ?_ ?_ ?_ ?_).2 captureAB (.head _) ?_ ?_).2 ?_ ?_ ?_).2 (entry 1024) ?_ ?_).2.1 (strip .inA) ?_ ?_ ?_),
    runs (((((ob.2.2 ⟨none, 65535, 0, 0, .none⟩ _ ?_ ?_ ?_ ?_).2 captureCD (.tail _ (.head _)) ?_ ?_).2 ?_ ?_ ?_).2 (entry 1025) ?_ ?_).2.2
        (piece .beltC) ?_ ?_ ?_ ?_),
    runs ((((ob.2.2 (entry 7) _ ?_ ?_ ?_ ?_).2 captureDE (.tail _ (.tail _ (.head _))) ?_ ?_).2 ?_ ?_ ?_).1 ?_)⟩ <;> decide +kernel

theorem test_ExpiryLosesHeadOfEveryZone_met (ob : Obligations.TrackerComparesAct) :
    (∃ t, exec (.handoffExpiry .E) (idle (taken (.expiry .E) { demo with ztr.zoneE := ⟨0, 0, [⟨none, 0, 0, 100, .none⟩]⟩ })) = .next t)
    ∧ (∃ t, exec (.handoffExpiry .B) (idle (strips .scanning (taken (.expiry .B) { demo with ztr.zoneB := ⟨0, 0, [entry 1024]⟩ }))) = .next
        t)
    ∧ (∃ t, exec (.handoffExpiry .B) (idle (pieces { piece .planned with reserved := some 0 } (put 0 (.strip plannedStrip) (bayed bundle
        .opened order (taken (.expiry .B) { demo with ztr.zoneB := ⟨0, 0, [entry 1024]⟩ }))))) = .next t)
    ∧ (∃ t, exec (.handoffExpiry .C) (idle (pieces (piece .beltC) (taken (.expiry .C) { demo with ztr.zoneC := ⟨0, 0, [entry 1025]⟩ }))) =
        .next t)
    ∧ (∃ t, exec (.handoffExpiry .D) (idle (pieces { piece .lug with reserved := some 0 } (bayed bundle .opened order (taken (.expiry .D)
        { demo with ztr.zoneD := ⟨0, 0, [entry 1025]⟩ })))) = .next t)
    ∧ (∃ t, exec (.handoffExpiry .E) (idle (pieces assigned ((bayed bundle .opened order (taken (.expiry .E)
        { demo with ztr.zoneE := ⟨0, 0, [entry 1025]⟩ })).setKickQueue 0 [⟨4900, 1025⟩]))) = .next t) := by
  refine ⟨runs ((ob.2.2.1 .E ⟨none, 0, 0, 100, .none⟩ _ ?_ ?_ ?_ ?_).1 ?_),
    runs (((ob.2.2.1 .B (entry 1024) _ ?_ ?_ ?_ ?_).2.1 (strip .scanning) ?_ ?_).1 ?_),
    runs ((((ob.2.2.1 .B (entry 1024) _ ?_ ?_ ?_ ?_).2.1 plannedStrip ?_ ?_).2 { piece .planned with reserved := some 0 } ⟨some 1025, 0, 1,
        3010⟩ 100 0 order ?_ ?_ ?_ ?_ ?_ ?_) ?_ ?_),
    runs (((ob.2.2.1 .C (entry 1025) _ ?_ ?_ ?_ ?_).2.2 (piece .beltC) ?_ ?_).1 ?_ ?_),
    runs (((ob.2.2.1 .D (entry 1025) _ ?_ ?_ ?_ ?_).2.2 { piece .lug with reserved := some 0 } ?_ ?_).2.1 0 order ?_ ?_ ?_),
    runs (((ob.2.2.1 .E (entry 1025) _ ?_ ?_ ?_ ?_).2.2 assigned ?_ ?_).2.2 0 bundle order ?_ ?_ ?_ ?_ ?_ ?_)⟩ <;> decide +kernel

theorem test_RecretRemovesEachState_met (ob : Obligations.RecretRemovesRecord) :
    (∃ t, exec (.recret 0 9 1024) (idle (pieces { piece .planned with reserved := some 0 } (put 0 (.strip plannedStrip) (bayed bundle
        .opened order { demo with ztr.zoneB := ⟨0, 0, [entry 1024]⟩ })))) = .next t)
    ∧ (∃ t, exec (.recret 0 9 1024) (idle (pieces (piece .beltC) (put 0 (.strip
        { plannedStrip with state := .cutting, leadC := some 7, pendingSaw := 1 })
        { demo with ztr.zoneC := ⟨0, 0, [entry 1025]⟩, ztr.cutList := [⟨1024, 7⟩], acu.saw := [⟨500, 1024⟩] }))) = .next t)
    ∧ (∃ t, exec (.recret 0 9 1025) (idle (pieces { piece .beltC with reserved := some 0 } (bayed bundle .opened order
        { demo with ztr.zoneC := ⟨0, 0, [entry 1025]⟩ }))) = .next t)
    ∧ (∃ t, exec (.recret 0 9 1025) (idle (pieces { piece .lug with reserved := some 0 } (bayed bundle .opened order
        { demo with ztr.zoneD := ⟨0, 0, [entry 1025]⟩ }))) = .next t)
    ∧ (∃ t, exec (.recret 0 9 1025) (idle (pieces { piece .beltE with reserved := some 0 } (bayed bundle .opened order
        { demo with ztr.zoneE := ⟨0, 0, [entry 1025]⟩ }))) = .next t)
    ∧ (∃ t, exec (.recret 0 9 1025) (idle (pieces assigned ((bayed bundle .opened order
        { demo with ztr.zoneE := ⟨0, 0, [entry 1025]⟩ }).setKickQueue 0 [⟨4900, 1025⟩]))) = .next t)
    ∧ (∃ t, exec (.recret 0 9 1025) (idle (pieces (piece .planned) (put 0 (.strip plannedStrip) demo))) = .next t)
    ∧ (∃ t, exec (.recret 0 9 1024) (idle (strips .enteringA { demo with ztr.zoneA := ⟨0, 0, [entry 1024]⟩ })) = .next t)
    ∧ (∃ t, exec (.recret 0 9 1024) (idle (strips .inA { demo with ztr.zoneA := ⟨0, 0, [entry 1024]⟩ })) = .next t)
    ∧ (∃ t, exec (.recret 0 9 1024) (idle (strips .rejecting { demo with ztr.zoneA := ⟨0, 0, [entry 1024]⟩ })) = .next t)
    ∧ (∃ t, exec (.recret 0 9 1024) (idle (strips .enteringB { demo with ztr.zoneB := ⟨0, 0, [entry 1024]⟩ })) = .next t)
    ∧ (∃ t, exec (.recret 0 9 1024) (idle (strips .scanning { demo with ztr.zoneB := ⟨0, 0, [entry 1024]⟩ })) = .next t)
    ∧ (∃ t, exec (.recret 0 9 1024) (idle (strips .planning { demo with ztr.zoneB := ⟨0, 0, [entry 1024]⟩ })) = .next t)
    ∧ (∃ t, exec (.recret 0 9 1024) (idle (strips .rejecting { demo with ztr.zoneB := ⟨0, 0, [entry 1024]⟩ })) = .next t) := by
  refine ⟨answers (((ob.2 9 (entry 1024) _ ?_ ?_ ?_).2.1 plannedStrip { piece .planned with reserved := some 0 } ⟨some 1025, 0, 1, 3010⟩ 100
      ?_ ?_ ?_ ?_ ?_ ?_).1 ?_ ?_ ?_ ?_ ?_),
    answers ((((ob.2 9 (entry 1025) _ ?_ ?_ ?_).2.1 { plannedStrip with state := .cutting, leadC := some 7, pendingSaw := 1 } (piece .beltC)
        ⟨some 1025, 0, 1, 3010⟩ 100 ?_ ?_ ?_ ?_ ?_ ?_).2 500 7 ?_ ?_ ?_ ?_ ?_ ?_) ?_),
    answers (((ob.2 9 (entry 1025) _ ?_ ?_ ?_).2.2 { piece .beltC with reserved := some 0 } ?_).1 .C ?_ ?_ ?_),
    answers (((ob.2 9 (entry 1025) _ ?_ ?_ ?_).2.2 { piece .lug with reserved := some 0 } ?_).1 .D ?_ ?_ ?_),
    answers (((ob.2 9 (entry 1025) _ ?_ ?_ ?_).2.2 { piece .beltE with reserved := some 0 } ?_).1 .E ?_ ?_ ?_),
    answers ((((ob.2 9 (entry 1025) _ ?_ ?_ ?_).2.2 assigned ?_).2.1 0 bundle order ?_ ?_ ?_ ?_ ?_ ?_) ?_ ?_),
    answers (((ob.2 9 (entry 1025) _ ?_ ?_ ?_).2.2 (piece .planned) ?_).2.2 plannedStrip ⟨some 1025, 0, 1, 3010⟩ 100 ?_ ?_ ?_ ?_ ?_ ?_),
    answers (((ob.2 9 (entry 1024) _ ?_ ?_ ?_).1 (strip .enteringA) .A ?_ ?_ ?_ ?_ ?_ ?_) ?_),
    answers (((ob.2 9 (entry 1024) _ ?_ ?_ ?_).1 (strip .inA) .A ?_ ?_ ?_ ?_ ?_ ?_) ?_),
    answers (((ob.2 9 (entry 1024) _ ?_ ?_ ?_).1 (strip .rejecting) .A ?_ ?_ ?_ ?_ ?_ ?_) ?_),
    answers (((ob.2 9 (entry 1024) _ ?_ ?_ ?_).1 (strip .enteringB) .B ?_ ?_ ?_ ?_ ?_ ?_) ?_),
    answers (((ob.2 9 (entry 1024) _ ?_ ?_ ?_).1 (strip .scanning) .B ?_ ?_ ?_ ?_ ?_ ?_) ?_),
    answers (((ob.2 9 (entry 1024) _ ?_ ?_ ?_).1 (strip .planning) .B ?_ ?_ ?_ ?_ ?_ ?_) ?_),
    answers (((ob.2 9 (entry 1024) _ ?_ ?_ ?_).1 (strip .rejecting) .B ?_ ?_ ?_ ?_ ?_ ?_) ?_)⟩ <;> decide +kernel

theorem test_OutcomeChangesGrade_met (ob : Obligations.OutcomeChangesGrade) :
    (∃ t, exec (.outcome 3 9 1025 0) (idle (pieces { piece .lug with reserved := some 0 } demo)) = .next t)
    ∧ (∃ t, exec (.outcome 3 9 1025 0) (idle (pieces (piece .beltE) demo)) = .next t)
    ∧ (∃ t, exec (.outcome 3 9 1025 1) (idle (pieces { piece .beltE with unsure := true } demo)) = .next t)
    ∧ (∃ t, exec (.outcome 3 9 1025 1) (idle (pieces { piece .lug with grade := .B, reserved := some 0 } (bayed bundle .opened order demo)))
        = .next t)
    ∧ (∃ t, exec (.outcome 3 9 1025 1) (idle (pieces { piece .lug with grade := .C, reserved := some 0 } (bayed bundle .opened order demo)))
        = .next t)
    ∧ (∃ t, exec (.outcome 3 9 1025 2) (idle (pieces { piece .lug with reserved := some 0 } (bayed bundle .opened order demo))) = .next t)
    ∧ (∃ t, exec (.outcome 3 9 1025 1) (idle (pieces { piece .lug with reserved := some 0 } (twoOrders demo))) = .next t)
    ∧ (∃ t, exec (.outcome 3 9 1025 2) (idle (pieces { piece .beltE with grade := .W } demo)) = .next t)
    ∧ (∃ t, exec (.outcome 3 9 1025 2) (idle (pieces { piece .beltE with downgraded := true } demo)) = .next t)
    ∧ (∃ t, exec (.outcome 3 9 1025 2) (idle (pieces (piece .planned) demo)) = .next t)
    ∧ (∃ t, exec (.outcome 3 9 1025 2) (idle (pieces (piece .beltC) demo)) = .next t)
    ∧ (∃ t, exec (.outcome 3 9 1025 1) (idle (pieces (piece .unsorted) demo)) = .next t)
    ∧ (∃ t, exec (.outcome 3 9 1025 0) (idle (pieces assigned (bayed bundle .opened order demo))) = .next t)
    ∧ (∃ t, exec (.outcome 3 9 1025 1) (idle (pieces assigned (bayed bundle .opened order demo))) = .next t)
    ∧ (∃ t, exec (.outcome 3 9 1025 2) (idle (pieces assigned (bayed bundle .opened order demo))) = .next t)
    ∧ (∃ t, exec (.outcome 3 9 1024 0) (idle (strips .scanning demo)) = .next t)
    ∧ (∃ t, exec (.outcome 3 9 7 0) (idle demo) = .next t)
    ∧ (∃ t, exec (.outcome 3 9 7 3) (idle demo) = .next t) := by
  refine ⟨answers (((ob 3 9 _ ?_ ?_ ?_).1 { piece .lug with reserved := some 0 } ?_ ?_ ?_).1),
    answers (((ob 3 9 _ ?_ ?_ ?_).1 (piece .beltE) ?_ ?_ ?_).1),
    answers ((((ob 3 9 _ ?_ ?_ ?_).1 { piece .beltE with unsure := true } ?_ ?_ ?_).2 false).1 ?_ ?_),
    answers ((((ob 3 9 _ ?_ ?_ ?_).1 { piece .lug with grade := .B, reserved := some 0 } ?_ ?_ ?_).2 false).1 ?_ ?_),
    answers ((((ob 3 9 _ ?_ ?_ ?_).1 { piece .lug with grade := .C, reserved := some 0 } ?_ ?_ ?_).2 false).1 ?_ ?_),
    answers ((((ob 3 9 _ ?_ ?_ ?_).1 { piece .lug with reserved := some 0 } ?_ ?_ ?_).2 true).1 ?_ ?_),
    answers ((((ob 3 9 _ ?_ ?_ ?_).1 { piece .lug with reserved := some 0 } ?_ ?_ ?_).2 false).2.1 1 secondOrder ?_ ?_ ?_ ?_ ?_),
    answers ((((ob 3 9 _ ?_ ?_ ?_).1 { piece .beltE with grade := .W } ?_ ?_ ?_).2 true).2.2 ?_),
    answers (((ob 3 9 _ ?_ ?_ ?_).2.1 { piece .beltE with downgraded := true } 2 ?_ ?_).1 ?_),
    answers (((ob 3 9 _ ?_ ?_ ?_).2.1 (piece .planned) 2 ?_ ?_).1 ?_),
    answers (((ob 3 9 _ ?_ ?_ ?_).2.1 (piece .beltC) 2 ?_ ?_).1 ?_),
    answers (((ob 3 9 _ ?_ ?_ ?_).2.1 (piece .unsorted) 1 ?_ ?_).2.1 ?_),
    answers (((ob 3 9 _ ?_ ?_ ?_).2.1 assigned 0 ?_ ?_).2.2.1 ?_ ?_),
    answers (((ob 3 9 _ ?_ ?_ ?_).2.1 assigned 1 ?_ ?_).2.2.2 0 bundle ?_ ?_ ?_ ?_),
    answers (((ob 3 9 _ ?_ ?_ ?_).2.1 assigned 2 ?_ ?_).2.2.2 0 bundle ?_ ?_ ?_ ?_),
    answers ((ob 3 9 _ ?_ ?_ ?_).2.2.1 (strip .scanning) 0 ?_ ?_),
    answers ((ob 3 9 _ ?_ ?_ ?_).2.2.2.1 7 0 ?_ ?_ ?_),
    answers ((ob 3 9 _ ?_ ?_ ?_).2.2.2.2 7 3 ?_)⟩ <;> decide +kernel

theorem test_PermitChangeSendsOneLinsta_met (ob : Obligations.ContextAndRunRequests) :
    (∃ t, exec (.lingo 0 9) (idle { demo with cpl.run := false }) = .next t)
    ∧ (∃ t, exec (.linstp 0 9) (idle permitted) = .next t) := by
  refine ⟨ends ((ob.2.2 9 _ ?_ ?_ ?_ ?_).1 ?_),
    ends ((ob.2.2 9 _ ?_ ?_ ?_ ?_).2 ?_)⟩ <;> decide +kernel

theorem test_LossReportedAndIncompatibleKept_met (ob : Obligations.SignalMovesLinkState) :
    (∃ t, exec (.linkSignalLoss 2) (idle permitted) = .next t)
    ∧ (∃ t, exec (.linkSignalLoss 6) (idle (demo.setLink 6 { linkReset0 with signal := true, state := .incompatible })) = .next t)
    ∧ (∃ t, exec (.linkSignalLoss 6) (idle (demo.setLink 6 { linkReset0 with signal := true, state := .incompatible })) = .next t)
    ∧ (∃ t, exec (.linkSignalLoss 0) (idle (demo.setLink 0 { supervisor with state := .incompatible })) = .next t)
    ∧ (∃ t, exec (.linkSignalLoss 0) (idle (demo.setLink 0 { supervisor with state := .incompatible })) = .next t)
    ∧ (∃ t, exec (.linkSignalUp 6) (idle (demo.setLink 6 { linkReset0 with state := .incompatible })) = .next t)
    ∧ (∃ t, exec (.linkSignalUp 6) (idle (demo.setLink 6 { linkReset0 with state := .incompatible })) = .next t) := by
  refine ⟨ends (((ob.2.2 2 _ ?_ ?_ ?_).1 ?_ ?_ ?_ ?_ ?_ ?_) ?_ ?_ ?_),
    runs (((ob.2.2 6 _ ?_ ?_ ?_).2.1 ?_ ?_ ?_).1),
    leaves (((ob.2.2 6 _ ?_ ?_ ?_).2.1 ?_ ?_ ?_).2),
    runs (((ob.2.2 0 _ ?_ ?_ ?_).2.1 ?_ ?_ ?_).1),
    leaves (((ob.2.2 0 _ ?_ ?_ ?_).2.1 ?_ ?_ ?_).2),
    runs (((ob.2.2 6 _ ?_ ?_ ?_).2.2 ?_ ?_).1),
    leaves (((ob.2.2 6 _ ?_ ?_ ?_).2.2 ?_ ?_).2 ?_)⟩ <;> decide +kernel

theorem test_NoticeReceivedMakesIncompatible_met (ob : Obligations.LinkResetVacatesRole) :
    (∃ t, exec (.frameReceived 1 (frameBytes 3 0x80 0 [])) (idle demo) = .next t)
    ∧ (∃ t, exec (.frameReceived 1 (frameBytes 3 0x80 0 [])) (idle demo) = .next t)
    ∧ (∃ t, exec (.frameReceived 0 (frameBytes 3 0x80 0 [])) (idle demo) = .next t)
    ∧ (∃ t, exec (.frameReceived 0 (frameBytes 3 0x80 0 [])) (idle demo) = .next t)
    ∧ (∃ t, exec (.frameReceived 1 (frameBytes 2 0x80 0 [])) (idle demo) = .next t)
    ∧ (∃ t, exec (.frameReceived 1 (frameBytes 255 0x80 0 [])) (idle demo) = .next t)
    ∧ (∃ t, exec (.frameReceived 6 (frameBytes 1 0x80 0 [])) (idle (demo.setLink 6
        { linkReset0 with signal := true, state := .incompatible })) = .next t)
    ∧ (∃ t, exec (.frameReceived 6 (frameBytes 1 0x80 0 [])) (idle (demo.setLink 6
        { linkReset0 with signal := true, state := .incompatible })) = .next t) := by
  refine ⟨runs ((((ob.2.2 1 3 0x80 0 [] _ ?_ ?_ ?_ ?_ ?_ ?_) ?_ ?_).1 ?_ ?_ ?_ ?_).1),
    leaves ((((ob.2.2 1 3 0x80 0 [] _ ?_ ?_ ?_ ?_ ?_ ?_) ?_ ?_).1 ?_ ?_ ?_ ?_).2),
    runs ((((ob.2.2 0 3 0x80 0 [] _ ?_ ?_ ?_ ?_ ?_ ?_) ?_ ?_).1 ?_ ?_ ?_ ?_).1),
    leaves ((((ob.2.2 0 3 0x80 0 [] _ ?_ ?_ ?_ ?_ ?_ ?_) ?_ ?_).1 ?_ ?_ ?_ ?_).2),
    runs (((ob.2.2 1 2 0x80 0 [] _ ?_ ?_ ?_ ?_ ?_ ?_) ?_ ?_).2.1 ?_ ?_ ?_),
    runs (((ob.2.2 1 255 0x80 0 [] _ ?_ ?_ ?_ ?_ ?_ ?_) ?_ ?_).2.1 ?_ ?_ ?_),
    runs ((((ob.2.2 6 1 0x80 0 [] _ ?_ ?_ ?_ ?_ ?_ ?_) ?_ ?_).2.2 ?_ ?_).1),
    leaves ((((ob.2.2 6 1 0x80 0 [] _ ?_ ?_ ?_ ?_ ?_ ?_) ?_ ?_).2.2 ?_ ?_).2 ?_)⟩ <;> decide +kernel

theorem test_DoubleErrorCondemnsEachStripState_met (ob : Obligations.DoubleErrorsCondemnOrClear) :
    (∃ t, exec (.scrubRead) (idle (({ demo with ztr.zoneB := ⟨0, 0, [entry 1024]⟩, cpl.queue := [1024] } : Part).setSlot 0 ⟨1, .nothing,
        .double, ⟨1, .strip ⟨.mapped, 0, some (.B, 50), some 4010⟩⟩, false⟩)) = .next t)
    ∧ (∃ t, exec (.scrubRead) (idle (({ demo with ztr.zoneB := ⟨0, 0, [entry 1024]⟩, cpl.queue := [1024] } : Part).setSlot 0 ⟨1, .nothing,
        .double, ⟨1, .strip ⟨.planning, 0, some (.B, 50), some 4010⟩⟩, false⟩)) = .next t)
    ∧ (∃ t, exec (.scrubRead) (idle ((pieces { piece .planned with reserved := some 0 } (bayed bundle .opened order
        { demo with ztr.zoneB := ⟨0, 0, [entry 1024]⟩ })).setSlot 0 ⟨1, .nothing, .double, ⟨1, .strip ⟨.planned, 0, some (.B, 50), some
        4010⟩⟩, false⟩)) = .next t)
    ∧ (∃ t, exec (.scrubRead) (idle ((pieces (piece .beltC)
        { demo with ztr.zoneC := ⟨0, 0, [entry 1025]⟩, ztr.cutList := [⟨1024, 7⟩], acu.saw := [⟨500, 1024⟩] }).setSlot 0 ⟨1, .nothing,
        .double, ⟨1, .strip ⟨.cutting, 0, some (.C, 7), some 4010⟩⟩, false⟩)) = .next t)
    ∧ (∃ t, exec (.scrubRead) (idle (({ demo with ztr.zoneA := ⟨0, 0, [entry 1024]⟩ } : Part).setSlot 0 ⟨1, .nothing, .double, ⟨1, .strip
        ⟨.enteringA, 0, some (.A, 50), none⟩⟩, false⟩)) = .next t)
    ∧ (∃ t, exec (.scrubRead) (idle (({ demo with ztr.zoneA := ⟨0, 0, [entry 1024]⟩ } : Part).setSlot 0 ⟨1, .nothing, .double, ⟨1, .strip
        ⟨.inA, 0, some (.A, 50), none⟩⟩, false⟩)) = .next t)
    ∧ (∃ t, exec (.scrubRead) (idle (({ demo with ztr.zoneA := ⟨0, 0, [entry 1024]⟩ } : Part).setSlot 0 ⟨1, .nothing, .double, ⟨1, .strip
        ⟨.rejecting, 0, some (.A, 50), none⟩⟩, false⟩)) = .next t)
    ∧ (∃ t, exec (.scrubRead) (idle (({ demo with ztr.zoneB := ⟨0, 0, [entry 1024]⟩ } : Part).setSlot 0 ⟨1, .nothing, .double, ⟨1, .strip
        ⟨.rejecting, 0, some (.B, 50), none⟩⟩, false⟩)) = .next t) := by
  refine ⟨runs (((ob.2.1 ⟨.mapped, 0, some (.B, 50), some 4010⟩ (entry 1024) 50 _ ?_ ?_ ?_ ?_ ?_).2.1 ?_ ?_ ?_).1 ?_),
    runs (((ob.2.1 ⟨.planning, 0, some (.B, 50), some 4010⟩ (entry 1024) 50 _ ?_ ?_ ?_ ?_ ?_).2.1 ?_ ?_ ?_).2.1 ?_),
    runs (((ob.2.1 ⟨.planned, 0, some (.B, 50), some 4010⟩ (entry 1024) 50 _ ?_ ?_ ?_ ?_ ?_).2.1 ?_ ?_ ?_).2.2
        { piece .planned with reserved := some 0 } ?_ ?_ ?_ ?_ ?_),
    runs ((((ob.2.1 ⟨.cutting, 0, some (.C, 7), some 4010⟩ (entry 1025) 7 _ ?_ ?_ ?_ ?_ ?_).2.2 (piece .beltC) 4010 500 ?_ ?_ ?_ ?_ ?_ ?_)
        ?_ ?_ ?_ ?_ ?_ ?_) ?_ ?_),
    runs ((ob.2.1 ⟨.enteringA, 0, some (.A, 50), none⟩ (entry 1024) 50 _ ?_ ?_ ?_ ?_ ?_).1 .A ?_ ?_ ?_ ?_),
    runs ((ob.2.1 ⟨.inA, 0, some (.A, 50), none⟩ (entry 1024) 50 _ ?_ ?_ ?_ ?_ ?_).1 .A ?_ ?_ ?_ ?_),
    runs ((ob.2.1 ⟨.rejecting, 0, some (.A, 50), none⟩ (entry 1024) 50 _ ?_ ?_ ?_ ?_ ?_).1 .A ?_ ?_ ?_ ?_),
    runs ((ob.2.1 ⟨.rejecting, 0, some (.B, 50), none⟩ (entry 1024) 50 _ ?_ ?_ ?_ ?_ ?_).1 .B ?_ ?_ ?_ ?_)⟩ <;> decide +kernel

theorem test_DoubleErrorCondemnsPiece_met (ob : Obligations.DoubleErrorsCondemnOrClear) :
    (∃ t, exec (.scrubRead) (idle ((bayed bundle .opened order { demo with rst.scrubPtr := 1, ztr.zoneC := ⟨0, 0, [entry 1025]⟩ }).setSlot 1
        ⟨1, .nothing, .double, ⟨1, .piece ⟨.beltC, 0, some (.C, 0), 3010, none, 30, none, 1024⟩⟩, false⟩)) = .next t)
    ∧ (∃ t, exec (.scrubRead) (idle ((bayed bundle .opened order { demo with rst.scrubPtr := 1, ztr.zoneD := ⟨0, 0, [entry 1025]⟩ }).setSlot
        1 ⟨1, .nothing, .double, ⟨1, .piece ⟨.lug, 0, some (.D, 0), 3010, some 0, 30, none, 1024⟩⟩, false⟩)) = .next t)
    ∧ (∃ t, exec (.scrubRead) (idle ((bayed bundle .opened order { demo with rst.scrubPtr := 1, ztr.zoneE := ⟨0, 0, [entry 1025]⟩ }).setSlot
        1 ⟨1, .nothing, .double, ⟨1, .piece ⟨.beltE, 0, some (.E, 0), 3010, some 0, 30, none, 1024⟩⟩, false⟩)) = .next t)
    ∧ (∃ t, exec (.scrubRead) (idle ((bayed bundle .opened order { demo with rst.scrubPtr := 1, ztr.zoneE := ⟨0, 0, [entry 1025]⟩ }).setSlot
        1 ⟨1, .nothing, .double, ⟨1, .piece ⟨.unsorted, 0, some (.E, 0), 3010, none, 30, none, 1024⟩⟩, false⟩)) = .next t)
    ∧ (∃ t, exec (.scrubRead) (idle (((bayed bundle .opened order
        { demo with rst.scrubPtr := 1, ztr.zoneE := ⟨0, 0, [entry 1025]⟩ }).setKickQueue 0 [⟨4900, 1025⟩]).setSlot 1 ⟨1, .nothing, .double,
        ⟨1, .piece ⟨.assigned, 0, some (.E, 0), 3010, none, 30, some 0, 1024⟩⟩, false⟩)) = .next t)
    ∧ (∃ t, exec (.scrubRead) (idle ((put 0 (.strip plannedStrip) (bayed bundle .opened order { demo with rst.scrubPtr := 1 })).setSlot 1
        ⟨1, .nothing, .double, ⟨1, .piece ⟨.planned, 0, none, 3010, some 0, 30, none, 1024⟩⟩, false⟩)) = .next t) := by
  refine ⟨runs ((ob.2.2.1 ⟨.beltC, 0, some (.C, 0), 3010, none, 30, none, 1024⟩ (entry 1025) 0 _ ?_ ?_ ?_ ?_ ?_).1 .C ?_ ?_ ?_ ?_),
    runs ((ob.2.2.1 ⟨.lug, 0, some (.D, 0), 3010, some 0, 30, none, 1024⟩ (entry 1025) 0 _ ?_ ?_ ?_ ?_ ?_).1 .D ?_ ?_ ?_ ?_),
    runs ((ob.2.2.1 ⟨.beltE, 0, some (.E, 0), 3010, some 0, 30, none, 1024⟩ (entry 1025) 0 _ ?_ ?_ ?_ ?_ ?_).1 .E ?_ ?_ ?_ ?_),
    runs ((ob.2.2.1 ⟨.unsorted, 0, some (.E, 0), 3010, none, 30, none, 1024⟩ (entry 1025) 0 _ ?_ ?_ ?_ ?_ ?_).1 .E ?_ ?_ ?_ ?_),
    runs (((ob.2.2.1 ⟨.assigned, 0, some (.E, 0), 3010, none, 30, some 0, 1024⟩ (entry 1025) 0 _ ?_ ?_ ?_ ?_ ?_).2.1 0 bundle order ?_ ?_ ?_
        ?_ ?_ ?_) ?_ ?_ ?_),
    runs (((ob.2.2.1 ⟨.planned, 0, none, 3010, some 0, 30, none, 1024⟩ (entry 1025) 0 _ ?_ ?_ ?_ ?_ ?_).2.2 plannedStrip ⟨some 1025, 0, 1,
        3010⟩ 100 ?_ ?_ ?_ ?_ ?_ ?_) ?_)⟩ <;> decide +kernel

theorem test_DoubleErrorClearsEveryBlock_met (ob : Obligations.DoubleErrorsCondemnOrClear) :
    ∃ t, exec (.scrubRead) (idle damagedLine) = .next t := by
  refine ends (ob.2.2.2.2 _ ?_ ?_ ?_ ?_ damagedLine_laws) <;> decide +kernel

theorem test_LineClearRestoresLaws_met (ob : Obligations.LineClearEmptiesEveryBlock) :
    ∃ t, exec (.linclr 0 9) (idle damagedLine) = .next t := by
  refine ends (ob.2.1 9 _ ?_ ?_ ?_ damagedLine_laws) <;> decide +kernel

theorem test_ByteTimeoutDiscardsEveryFrame_met (ob : Obligations.LinkLinesEmptyTheirLists) :
    (∃ t, exec (.frameByteTimeout 1) (idle (demo.setLink 1 { station .moulder [5] with rx := [], frameErrors := 0 })) = .next t)
    ∧ (∃ t, exec (.frameByteTimeout 1) (idle (demo.setLink 1
        { station .moulder [5] with rx := [0xD4#8, 1#8, 0xD4#8, 0xD4#8, 2#8], frameErrors := 0 })) = .next t)
    ∧ (∃ t, exec (.frameByteTimeout 1) (idle (demo.setLink 1
        { station .moulder [5] with rx := [0xD4#8, 1#8, 0x10#8, 9#8, 0xD4#8, 1#8, 2#8, 3#8], frameErrors := 4294967293 })) = .next t) := by
  refine ⟨ends (ob.2.1.1 1 _ ?_ ?_ ?_),
    ends (ob.2.1.1 1 _ ?_ ?_ ?_),
    runs ((ob.2.1.2 1 [1#8, 0x10#8, 9#8] [1#8, 2#8, 3#8] _ ?_ ?_ ?_ ?_ ?_ ?_) ?_ ?_)⟩ <;> decide +kernel

theorem test_CEyeRejectsUnschedulableStrip_met (ob : Obligations.CEyeSchedulesPlannedStrip) :
    (∃ t, exec (.cEyeLeadingEdge) (idle (pieces (piece .planned) (put 0 (.strip plannedStrip)
        { demo with ztr.zoneB := ⟨0, 0, [entry 1024]⟩, acu.saw := List.replicate 32 ⟨0, 7⟩ }))) = .next t)
    ∧ (∃ t, exec (.cEyeLeadingEdge) (idle (pieces (piece .planned) (put 0 (.strip plannedStrip)
        { demo with ztr.zoneB := ⟨0, 0, [entry 1024]⟩, ztr.cutList := List.replicate 32 ⟨7, 0⟩ }))) = .next t)
    ∧ (∃ t, exec (.cEyeLeadingEdge) (idle (pieces (piece .planned) (put 0 (.strip plannedStrip)
        { demo with ztr.zoneB := ⟨0, 0, [entry 1024]⟩, acu.lastCut := some 4411 }))) = .next t)
    ∧ (∃ t, exec (.cEyeLeadingEdge) (idle (pieces (piece .planned) (put 0 (.strip plannedStrip)
        { demo with ztr.zoneB := ⟨0, 0, [entry 1024]⟩, acu.saw := [⟨4911, 7⟩] }))) = .next t)
    ∧ (∃ t, exec (.cEyeLeadingEdge) (idle (pieces (piece .planned) (put 0 (.strip plannedStrip)
        { demo with ztr.zoneB := ⟨0, 0, [entry 1024]⟩, ztr.geo := { geometry with dSaw := 0, pSaw := 8000 } }))) = .next t)
    ∧ (∃ t, exec (.cEyeLeadingEdge) (idle (pieces (piece .planned) (put 0 (.strip plannedStrip)
        { demo with ztr.zoneB := ⟨0, 0, [entry 1024]⟩, ztr.zoneC := ⟨0, 0, List.replicate 64 (entry 9)⟩ }))) = .next t)
    ∧ (∃ t, exec (.cEyeLeadingEdge) (idle (pieces (piece .planned) (put 0 (.strip plannedStrip)
        { demo with ztr.zoneB := ⟨0, 0, [entry 1024]⟩, ztr.zoneC := ⟨0, 0, [entry 9]⟩ }))) = .next t)
    ∧ (∃ t, exec (.cEyeLeadingEdge) (idle (pieces { piece .planned with reserved := some 0 } (put 0 (.strip plannedStrip)
        { bayed bundle .opened order demo with ztr.zoneB := ⟨0, 0, [entry 1024]⟩, ztr.zoneC := ⟨0, 0, [entry 9]⟩ }))) = .next t) := by
  refine ⟨runs ((((ob.2 plannedStrip (piece .planned) (entry 1024) 100 4010 ⟨some 1025, 0, 1, 3010⟩ _ ?_ ?_ ?_ ?_ ?_ ?_) ?_ ?_ ?_ ?_ ?_ ?_)
      ?_ ?_ ?_ (.inl ?_) ?_ ?_ ?_ ?_ ?_).1 ?_),
    runs ((((ob.2 plannedStrip (piece .planned) (entry 1024) 100 4010 ⟨some 1025, 0, 1, 3010⟩ _ ?_ ?_ ?_ ?_ ?_ ?_) ?_ ?_ ?_ ?_ ?_ ?_) ?_ ?_
        ?_ (.inr (.inl ?_)) ?_ ?_ ?_ ?_ ?_).1 ?_),
    runs ((((ob.2 plannedStrip (piece .planned) (entry 1024) 100 4010 ⟨some 1025, 0, 1, 3010⟩ _ ?_ ?_ ?_ ?_ ?_ ?_) ?_ ?_ ?_ ?_ ?_ ?_) ?_ ?_
        ?_ (.inr (.inr (.inl ⟨4910, ?_, 4411, .inr ⟨?_, ?_⟩, .inl ?_⟩))) ?_ ?_ ?_ ?_ ?_).1 ?_),
    runs ((((ob.2 plannedStrip (piece .planned) (entry 1024) 100 4010 ⟨some 1025, 0, 1, 3010⟩ _ ?_ ?_ ?_ ?_ ?_ ?_) ?_ ?_ ?_ ?_ ?_ ?_) ?_ ?_
        ?_ (.inr (.inr (.inl ⟨4910, ?_, 4911, .inl ⟨⟨4911, 7⟩, ?_, ?_⟩, .inr ?_⟩))) ?_ ?_ ?_ ?_ ?_).1 ?_),
    runs ((((ob.2 plannedStrip (piece .planned) (entry 1024) 100 4010 ⟨some 1025, 0, 1, 3010⟩ _ ?_ ?_ ?_ ?_ ?_ ?_) ?_ ?_ ?_ ?_ ?_ ?_) ?_ ?_
        ?_ (.inr (.inr (.inr (.inl ?_)))) ?_ ?_ ?_ ?_ ?_).1 ?_),
    runs ((((ob.2 plannedStrip (piece .planned) (entry 1024) 100 4010 ⟨some 1025, 0, 1, 3010⟩ _ ?_ ?_ ?_ ?_ ?_ ?_) ?_ ?_ ?_ ?_ ?_ ?_) ?_ ?_
        ?_ (.inr (.inr (.inr (.inr (.inl ?_))))) ?_ ?_ ?_ ?_ ?_).1 ?_),
    runs ((((ob.2 plannedStrip (piece .planned) (entry 1024) 100 4010 ⟨some 1025, 0, 1, 3010⟩ _ ?_ ?_ ?_ ?_ ?_ ?_) ?_ ?_ ?_ ?_ ?_ ?_) ?_ ?_
        ?_ (.inr (.inr (.inr (.inr (.inr ?_))))) ?_ ?_ ?_ ?_ ?_).1 ?_),
    runs ((((ob.2 plannedStrip { piece .planned with reserved := some 0 } (entry 1024) 100 4010 ⟨some 1025, 0, 1, 3010⟩ _ ?_ ?_ ?_ ?_ ?_ ?_)
        ?_ ?_ ?_ ?_ ?_ ?_) ?_ ?_ ?_ (.inr (.inr (.inr (.inr (.inr ?_))))) ?_ ?_ ?_ ?_ ?_).2 0 order ?_ ?_)⟩ <;> decide +kernel

theorem test_CEyeEntersIntervalAmongOthers_met (ob : Obligations.CEyeOpensAndClosesInterval) :
    (∃ t, exec (.cEyeLeadingEdge) (idle { demo with acu.waste := [⟨2900, some 99999, .opened⟩] }) = .next t)
    ∧ (∃ t, exec (.cEyeLeadingEdge) (idle (strips .rejecting
        { demo with ztr.zoneB := ⟨100, 100, [entry 1024]⟩, acu.waste := [⟨100, some 2900, .opened⟩, ⟨6910, some 7000, .opened⟩] })) = .next
        t) := by
  refine ⟨runs ((ob.2.1 _ ?_ ?_ ?_ ?_).1 ?_ ?_),
    runs (((ob.2.1 _ ?_ ?_ ?_ ?_).2 (strip .rejecting) (entry 1024) 4010 ?_ ?_ ?_ ?_ ?_ ?_) ?_ ?_ ?_)⟩ <;> decide +kernel

theorem test_KickLandsInClosingBay_met (ob : Obligations.KickLandsPiece) :
    (∃ t, exec (.kickFiring 0 1025) (idle (pieces assigned (bayed { bundle with transit := 31 } .closing order (taken (.kick 0 1025)
        { demo with ztr.zoneE := ⟨0, 0, [entry 1025]⟩ })))) = .next t)
    ∧ (∃ t, exec (.kickFiring 0 1025) (idle (pieces assigned (bayed { bundle with landed := 969 } .closing order (taken (.kick 0 1025)
        { demo with ztr.zoneE := ⟨0, 0, [entry 1025]⟩ })))) = .next t)
    ∧ (∃ t, exec (.kickFiring 0 1025) (idle (pieces assigned (bayed { bundle with landed := 970 } .closing order (taken (.kick 0 1025)
        { demo with ztr.zoneE := ⟨0, 0, [entry 1025]⟩ })))) = .next t)
    ∧ (∃ t, exec (.kickFiring 0 1025) (idle (pieces assigned (bayed { bundle with short := true, shortTransit := 30 } .closing
        { order with shortLength := 301 } (taken (.kick 0 1025) { demo with ztr.zoneE := ⟨0, 0, [entry 1025]⟩ })))) = .next t)
    ∧ (∃ t, exec (.kickFiring 0 1025) (idle (pieces assigned (bayed bundle .closing { order with state := .cancelling } (taken (.kick 0
        1025) { demo with ztr.zoneE := ⟨0, 0, [entry 1025]⟩ })))) = .next t) := by
  refine ⟨runs (((ob.2 0 assigned { bundle with transit := 31 } order (entry 1025) _ ?_ ?_ ?_ ?_ ?_ ?_) ?_ ?_ ?_ ?_ ?_ ?_).1 ?_),
    runs (((ob.2 0 assigned { bundle with landed := 969 } order (entry 1025) _ ?_ ?_ ?_ ?_ ?_ ?_) ?_ ?_ ?_ ?_ ?_ ?_).2.1 ?_ ?_ ?_ ?_),
    runs (((ob.2 0 assigned { bundle with landed := 970 } order (entry 1025) _ ?_ ?_ ?_ ?_ ?_ ?_) ?_ ?_ ?_ ?_ ?_ ?_).2.2 ?_ ?_),
    runs (((ob.2 0 assigned { bundle with short := true, shortTransit := 30 } { order with shortLength := 301 } (entry 1025) _ ?_ ?_ ?_ ?_
        ?_ ?_) ?_ ?_ ?_ ?_ ?_ ?_).2.2 ?_ ?_),
    runs (((ob.2 0 assigned bundle { order with state := .cancelling } (entry 1025) _ ?_ ?_ ?_ ?_ ?_ ?_) ?_ ?_ ?_ ?_ ?_ ?_).2.2 ?_ ?_)⟩ <;>
        decide +kernel

theorem test_SortCompareReleasesPiece_met (ob : Obligations.SortCompareAssignsPiece) :
    (∃ t, exec (.sortCompare 1025) (idle (pieces (piece .beltE) (taken (.sort 1025) demo))) = .next t)
    ∧ (∃ t, exec (.sortCompare 1025) (idle (pieces { piece .beltE with reserved := some 0, unsure := true } (bayed bundle .opened order
        (taken (.sort 1025) demo)))) = .next t)
    ∧ (∃ t, exec (.sortCompare 1025) (idle (pieces { piece .beltE with reserved := some 0 } (bayed bundle .full order (taken (.sort 1025)
        demo)))) = .next t)
    ∧ (∃ t, exec (.sortCompare 1025) (idle (pieces { piece .beltE with reserved := some 0 } ((bayed bundle .opened order (taken (.sort 1025)
        demo)).setKickQueue 0 [⟨4900, 7⟩, ⟨4901, 8⟩]))) = .next t)
    ∧ (∃ t, exec (.sortCompare 1025) (idle (pieces { piece .beltE with reserved := some 1 } ((bayed bundle .opened order (taken (.sort 1025)
        demo)).setOrder 0 (some { order with shortLength := 301 }) |>.setOrder 1 (some secondOrder)))) = .next t) := by
  refine ⟨runs ((ob.2.1 (piece .beltE) _ ?_ ?_ ?_ ?_ ?_).1 ?_ ?_),
    runs ((ob.2.1 { piece .beltE with reserved := some 0, unsure := true } _ ?_ ?_ ?_ ?_ ?_).2.1 0 order ?_ ?_ ?_),
    runs ((ob.2.1 { piece .beltE with reserved := some 0 } _ ?_ ?_ ?_ ?_ ?_).2.1 0 order ?_ ?_ ?_),
    runs (((ob.2.1 { piece .beltE with reserved := some 0 } _ ?_ ?_ ?_ ?_ ?_).2.2 ⟨0, 0, 4, 30⟩ bundle 0 order
        { order with reservedArea := order.reservedArea - 30 } [⟨4900, 7⟩] [⟨4901, 8⟩] ?_ ?_ ?_ ?_ ?_ ?_) ?_ ?_ ?_ ?_ ?_),
    runs (((ob.2.1 { piece .beltE with reserved := some 1 } _ ?_ ?_ ?_ ?_ ?_).2.2 ⟨0, 0, 4, 30⟩ bundle 1 secondOrder
        { order with shortLength := 301 } [] [] ?_ ?_ ?_ ?_ ?_ ?_) ?_ ?_ ?_ ?_ ?_)⟩ <;> decide +kernel

theorem test_BayhldReevaluatesClosingBay_met (ob : Obligations.HoldRequestsChangeBay) :
    (∃ t, exec (.bayhld 4 9 1) (idle (pieces assigned ((bayed { bundle with transit := 31, landed := 999 } .closing order demo).setKickQueue
        0 [⟨4900, 1025⟩]))) = .next t)
    ∧ (∃ t, exec (.bayhld 4 9 1) (idle (pieces assigned ((bayed { bundle with transit := 31, landed := 998 } .closing order
        demo).setKickQueue 0 [⟨4900, 1025⟩]))) = .next t)
    ∧ (∃ t, exec (.bayhld 4 9 1) (idle (pieces assigned ((bayed { bundle with landed := 999 } .closing order demo).setKickQueue 0 [⟨4900,
        1025⟩]))) = .next t)
    ∧ (∃ t, exec (.bayhld 4 9 1) (idle (pieces assigned ((bayed { bundle with landed := 1000 } .closing order demo).setKickQueue 0 [⟨4900,
        1025⟩]))) = .next t)
    ∧ (∃ t, exec (.bayhld 4 9 1) (idle (pieces assigned ((bayed { bundle with short := true } .closing order demo).setKickQueue 0 [⟨4900,
        1025⟩]))) = .next t) := by
  refine ⟨answers (((ob.2.1 4 9 0 ⟨4900, 1025⟩ assigned { bundle with transit := 31, landed := 999 } order _ ?_ ?_ ?_ ?_ ?_ ?_) ?_ ?_ ?_ ?_
      ?_).1 ?_ ?_),
    answers (((ob.2.1 4 9 0 ⟨4900, 1025⟩ assigned { bundle with transit := 31, landed := 998 } order _ ?_ ?_ ?_ ?_ ?_ ?_) ?_ ?_ ?_ ?_
        ?_).2.1 ?_),
    answers (((ob.2.1 4 9 0 ⟨4900, 1025⟩ assigned { bundle with landed := 999 } order _ ?_ ?_ ?_ ?_ ?_ ?_) ?_ ?_ ?_ ?_ ?_).2.1 ?_),
    answers (((ob.2.1 4 9 0 ⟨4900, 1025⟩ assigned { bundle with landed := 1000 } order _ ?_ ?_ ?_ ?_ ?_ ?_) ?_ ?_ ?_ ?_ ?_).2.2 ?_ ?_ ?_
        ?_),
    answers (((ob.2.1 4 9 0 ⟨4900, 1025⟩ assigned { bundle with short := true } order _ ?_ ?_ ?_ ?_ ?_ ?_) ?_ ?_ ?_ ?_ ?_).2.2 ?_ ?_ ?_ ?_)⟩
        <;> decide +kernel

theorem test_LineClearReevaluatesClosing_met (ob : Obligations.LineClearEmptiesEveryBlock) :
    (∃ t, exec (.linclr 0 9) (idle (bayed { bundle with landed := 999 } .closing order demo)) = .next t)
    ∧ (∃ t, exec (.linclr 0 9) (idle (bayed { bundle with landed := 1000 } .closing order demo)) = .next t) := by
  refine ⟨ends (ob.2.2 9 _ ?_ ?_ ?_),
    ends (ob.2.2 9 _ ?_ ?_ ?_)⟩ <;> decide +kernel

end Sys2Proof.Tests
end

/-! PROOFS. The cut plan (chapter 5): Stages 2 and 3, the admissible plans, the choice among them, and the cuts and waste of a plan. -/

namespace Sys2Proof.Machine

open Sys2Proof

/-! Stage 2: the normalised defects (R97). -/

/-- What normalisation leaves of a posted defect, where it leaves anything (R97). -/
def expandedDefect (x : Snapshot) (d : Defect) : NormDefect :=
  ⟨min d.start x.length - x.profile.clearance, min x.length (min d.stop x.length + x.profile.clearance), d.cls, d.size⟩

theorem normDefect_eq_some_iff (x : Snapshot) (d : Defect) (e : NormDefect) :
    normDefect x.length x.profile.clearance d = some e
      ↔ min d.start x.length < min d.stop x.length ∧ expandedDefect x d = e := by
  simp only [normDefect, expandedDefect, Option.ite_none_right_eq_some, Option.some.injEq]

theorem normalised_eq_map_filter (x : Snapshot) :
    normalised x
      = (x.defects.filter fun d => decide (min d.start x.length < min d.stop x.length)).map (expandedDefect x) := by
  rw [← List.filterMap_eq_map, List.filterMap_filter]
  refine List.filterMap_congr fun d _ => Option.ext fun e => ?_
  rw [normDefect_eq_some_iff]
  simp

theorem expandedDefect_within (x : Snapshot) (d : Defect) (h : min d.start x.length < min d.stop x.length) :
    (expandedDefect x d).start < (expandedDefect x d).stop ∧ (expandedDefect x d).stop ≤ x.length := by
  simp only [expandedDefect]
  omega

theorem normalised_within (x : Snapshot) : ∀ d ∈ normalised x, d.start < d.stop ∧ d.stop ≤ x.length := by
  intro d hd
  obtain ⟨p, -, hp⟩ := List.mem_filterMap.1 hd
  obtain ⟨hlt, rfl⟩ := (normDefect_eq_some_iff x p d).1 hp
  exact expandedDefect_within x p hlt

theorem length_normalised_le (x : Snapshot) : (normalised x).length ≤ x.defects.length :=
  List.length_filterMap_le _ _

/-! Stage 3: the grade of a placement (R65, R99, R100). -/

theorem fatal_iff (limits : List GradeLimit) (k : Nat) :
    fatal limits k = true ↔ ∀ g < 3, (limitOf limits k g).count = 0 := by
  constructor
  · intro h g hg
    simp only [fatal, Bool.and_eq_true, beq_iff_eq] at h
    obtain ⟨⟨h0, h1⟩, h2⟩ := h
    interval_cases g <;> assumption
  · intro h
    simp [fatal, h]

theorem meetsClass_iff (l : GradeLimit) (ds : List NormDefect) :
    meetsClass l ds = true
      ↔ (ds ≠ [] → (l.count = 15 ∨ ds.length ≤ l.count) ∧ (l.size = 255 ∨ ∀ d ∈ ds, d.size ≤ 10 * l.size)) := by
  by_cases hsize : l.size = 255 <;> simp [meetsClass, hsize, imp_iff_not_or]

theorem meetsGrade_iff (limits : List GradeLimit) (g : Nat) (ds : List NormDefect) :
    meetsGrade limits g ds = true
      ↔ ∀ k < 16, (ds.filter fun d => d.cls == k) ≠ [] →
        ((limitOf limits k g).count = 15 ∨ (ds.filter fun d => d.cls == k).length ≤ (limitOf limits k g).count)
          ∧ ((limitOf limits k g).size = 255 ∨ ∀ d ∈ ds, d.cls = k → d.size ≤ 10 * (limitOf limits k g).size) := by
  simp only [meetsGrade, List.all_eq_true, List.mem_range, meetsClass_iff, List.mem_filter, beq_iff_eq, and_imp]

theorem any_fatal_iff (limits : List GradeLimit) (ds : List NormDefect) :
    (ds.any fun d => fatal limits d.cls) = true ↔ ∃ d ∈ ds, ∀ g < 3, (limitOf limits d.cls g).count = 0 := by
  simp only [List.any_eq_true, fatal_iff]

/-- The branches of `gradeOf`: the grades are tried in the order A, B, C, once no class is fatal. -/
theorem gradeOf_cases (limits : List GradeLimit) (ds : List NormDefect) :
    let dead := (ds.any fun d => fatal limits d.cls) = true
    let met := fun g => meetsGrade limits g ds = true
    (gradeOf limits ds = some .A ↔ ¬ dead ∧ met 0)
      ∧ (gradeOf limits ds = some .B ↔ ¬ dead ∧ ¬ met 0 ∧ met 1)
      ∧ (gradeOf limits ds = some .C ↔ ¬ dead ∧ ¬ met 0 ∧ ¬ met 1 ∧ met 2)
      ∧ (gradeOf limits ds = none ↔ dead ∨ (¬ met 0 ∧ ¬ met 1 ∧ ¬ met 2)) := by
  unfold gradeOf
  split_ifs <;> simp_all

theorem not_fatal_of_gradeOf {limits : List GradeLimit} {ds : List NormDefect} {g : Grade} (h : gradeOf limits ds = some g) :
    ∀ d ∈ ds, fatal limits d.cls = false := by
  have hdead : ¬ (ds.any fun d => fatal limits d.cls) = true := fun hdead => by
    simp [(gradeOf_cases limits ds).2.2.2.2 (.inl hdead)] at h
  simpa using hdead

/-- Settles O54: normalisation is a filter and a map, and the branches of `gradeOf` are read through what each grade asks. -/
theorem defectsAndPlacementGrades : Obligations.DefectsAndPlacementGrades := by
  refine ⟨fun x => ⟨normalised_eq_map_filter x, normalised_within x, (length_normalised_le x).trans⟩, fun limits ds => ?_⟩
  simpa only [meetsGrade_iff, any_fatal_iff] using gradeOf_cases limits ds

/-! Stage 7: the plans weighed are the admissible ones (R105, R106). -/

theorem makePlace_eq_some_iff (x : Snapshot) (start c : Nat) (pl : Place) :
    makePlace x start c = some pl ↔ ∃ len : Nat, x.profile.classes[c]? = some len
      ∧ start + footprint x.profile len ≤ x.length
      ∧ ∃ g, gradeOf x.limits (overlapped x start (footprint x.profile len)) = some g
        ∧ pl = ⟨start, c + 1, len, footprint x.profile len, g, valueOf x g c, areaOf len x.profile.width⟩ := by
  unfold makePlace
  split
  next hclass => simp [hclass]
  next len hclass =>
    simp only [hclass, Option.some.injEq, exists_eq_left']
    split_ifs with hout
    · simp [hout]
    · split
      next hgrade => simp [hgrade]
      next g hgrade => simp [hgrade, not_lt.1 hout, eq_comm]

theorem mem_placesAt_iff (x : Snapshot) (start : Nat) (pl : Place) :
    pl ∈ placesAt x start ↔ pl.start = start ∧ IsPlace x pl := by
  simp only [placesAt, List.mem_filterMap, List.mem_range, makePlace_eq_some_iff]
  constructor
  · rintro ⟨c, -, len, hclass, hfit, g, hgrade, rfl⟩
    exact ⟨rfl, c, len, hclass, rfl, rfl, rfl, hfit, hgrade, rfl, rfl⟩
  · rintro ⟨rfl, c, len, hclass, hcls, hlen, hfoot, hfit, hgrade, hvalue, harea⟩
    obtain ⟨start, cls, len', foot, grade, value, area⟩ := pl
    obtain ⟨hc, -⟩ := List.getElem?_eq_some_iff.1 hclass
    dsimp only at hcls hlen hfoot hvalue harea
    subst hcls hlen hfoot hvalue harea
    exact ⟨c, hc, _, hclass, hfit, grade, hgrade, rfl⟩

theorem mem_expandedEnds_iff (x : Snapshot) (n : Nat) : n ∈ expandedEnds x ↔ IsExpandedEnd x n := by
  simp [expandedEnds, IsExpandedEnd, List.mem_eraseDups]

theorem mem_startsAfter_none_iff (x : Snapshot) (n : Nat) :
    n ∈ startsAfter x none ↔ n = 0 ∨ (IsExpandedEnd x n ∧ x.profile.kerf ≤ n) := by
  simp only [startsAfter, List.mem_cons, List.mem_filter, mem_expandedEnds_iff, Bool.and_eq_true, decide_eq_true_eq, bne_iff_ne]
  tauto

theorem mem_startsAfter_some_iff (x : Snapshot) (e n : Nat) :
    n ∈ startsAfter x (some e)
      ↔ n = e + x.profile.kerf ∨ (IsExpandedEnd x n ∧ e + 2 * x.profile.kerf ≤ n) := by
  simp only [startsAfter, List.mem_cons, List.mem_filter, mem_expandedEnds_iff, Bool.and_eq_true, decide_eq_true_eq, bne_iff_ne]
  tauto

theorem startsFollow_cons_iff (x : Snapshot) (prev : Option Nat) (pl : Place) (rest : List Place) :
    StartsFollow x prev (pl :: rest)
      ↔ pl.start ∈ startsAfter x prev ∧ StartsFollow x (some (pl.start + pl.foot)) rest := by
  cases prev with
  | none => rw [mem_startsAfter_none_iff, StartsFollow]
  | some e => rw [mem_startsAfter_some_iff, StartsFollow]

theorem mem_plansFrom_iff (x : Snapshot) (n : Nat) (prev : Option Nat) (q : List Place) :
    q ∈ plansFrom x n prev ↔ q.length ≤ n ∧ (∀ pl ∈ q, IsPlace x pl) ∧ StartsFollow x prev q := by
  induction n generalizing prev q with
  | zero => cases q <;> simp [plansFrom, StartsFollow]
  | succ n ih =>
    cases q with
    | nil => simp [plansFrom, StartsFollow]
    | cons pl rest =>
      simp only [List.forall_mem_cons]
      simp only [plansFrom, List.mem_cons, reduceCtorEq, false_or, List.mem_flatMap, List.mem_map, mem_placesAt_iff,
        List.cons.injEq, ih, startsFollow_cons_iff, List.length_cons, Nat.add_le_add_iff_right]
      constructor
      · rintro ⟨_, hstart, _, ⟨rfl, hplace⟩, _, ⟨hlen, hplaces, hfollow⟩, rfl, rfl⟩
        exact ⟨hlen, ⟨hplace, hplaces⟩, hstart, hfollow⟩
      · rintro ⟨hlen, ⟨hplace, hplaces⟩, hstart, hfollow⟩
        exact ⟨_, hstart, pl, ⟨rfl, hplace⟩, rest, ⟨hlen, hplaces, hfollow⟩, rfl, rfl⟩

theorem spaced_iff (recovery : Nat) (cuts : List Nat) : spaced recovery cuts = true ↔ CutsSpaced recovery cuts := by
  unfold CutsSpaced
  induction cuts using spaced.induct with
  | case1 => simp [spaced]
  | case2 a => simp [spaced]
  | case3 a b rest ih =>
    simp only [spaced, Bool.and_eq_true, decide_eq_true_eq, ih]
    constructor
    · rintro ⟨hab, hrest⟩ i
      cases i with
      | zero => simpa using hab
      | succ i => simpa using hrest i
    · intro h
      exact ⟨h 0 a b rfl rfl, fun i => by simpa using h (i + 1)⟩

theorem mem_admissiblePlans_iff (x : Snapshot) (q : List Place) :
    q ∈ admissiblePlans x ↔ q.length ≤ 8 ∧ (∀ pl ∈ q, IsPlace x pl) ∧ StartsFollow x none q
      ∧ CutsSpaced x.recovery (cutsOf x.profile.kerf x.length (spans q)) := by
  simp only [admissiblePlans, List.mem_filter, mem_plansFrom_iff, spaced_iff, and_assoc]

/-! What a place and a plan come to (R99, R104, R105). -/

theorem IsPlace.within {x : Snapshot} {pl : Place} (h : IsPlace x pl) : pl.start + pl.foot ≤ x.length := by
  obtain ⟨_, _, _, _, _, _, hfit, _⟩ := h
  exact hfit

theorem IsPlace.value_le {x : Snapshot} {pl : Place} (h : IsPlace x pl) : pl.value ≤ 4095 := by
  obtain ⟨_, _, _, _, _, _, _, _, hvalue, _⟩ := h
  exact hvalue ▸ min_le_left _ _

theorem IsPlace.clear_of_fatal {x : Snapshot} {pl : Place} (h : IsPlace x pl) {d : NormDefect} (hd : d ∈ normalised x)
    (hfatal : fatal x.limits d.cls = true) : pl.start + pl.foot ≤ d.start ∨ d.stop ≤ pl.start := by
  obtain ⟨_, _, _, _, _, _, _, hgrade, _, _⟩ := h
  have hclear : d ∉ overlapped x pl.start pl.foot := fun hmem => by
    simp [not_fatal_of_gradeOf hgrade d hmem] at hfatal
  simp only [overlapped, List.mem_filter, NormDefect.overlaps, Bool.and_eq_true, decide_eq_true_eq] at hclear
  by_contra! hmeet
  exact hclear ⟨hd, hmeet.symm⟩

theorem planValue_le (x : Snapshot) (q : List Place) (h : ∀ pl ∈ q, IsPlace x pl) : planValue q ≤ q.length * 4095 := by
  have hsum := List.sum_le_card_nsmul (q.map (·.value)) 4095 (List.forall_mem_map.2 fun pl hpl => IsPlace.value_le (h pl hpl))
  simpa [planValue] using hsum

/-! Stage 8: the order in which plans are preferred (R107). -/

theorem not_earlier_self (a : List Place) : earlier a a = false := by
  induction a with
  | nil => rfl
  | cons p as ih => simpa [earlier] using ih

theorem earlier_cons_cons (p q : Place) (as bs : List Place) :
    earlier (p :: as) (q :: bs) = true
      ↔ p.start < q.start ∨ (p.start = q.start ∧ (q.len < p.len ∨ (p.len = q.len ∧ earlier as bs = true))) := by
  by_cases hs : p.start = q.start <;> by_cases hl : p.len = q.len <;> simp [earlier, hs, hl]

theorem earlier_trans {a b c : List Place} (hab : earlier a b = true) (hbc : earlier b c = true) : earlier a c = true := by
  induction a generalizing b c with
  | nil => simp [earlier] at hab
  | cons p as ih =>
    match b, c with
    | [], _ => simp [earlier] at hab
    | _ :: _, [] => simp [earlier] at hbc
    | q :: bs, r :: cs =>
      have htail : earlier as bs = true → earlier bs cs = true → earlier as cs = true := ih
      rw [earlier_cons_cons] at hab hbc ⊢
      grind

/-- The tests of R107 in turn. -/
theorem better_iff (a b : List Place) :
    better a b = true ↔ planValue b < planValue a
      ∨ (planValue a = planValue b ∧ (a.length < b.length
        ∨ (a.length = b.length ∧ (planLength b < planLength a
          ∨ (planLength a = planLength b ∧ earlier a b = true))))) := by
  unfold better
  split_ifs <;> simp_all

theorem not_better_self (a : List Place) : ¬ better a a = true := by
  simp [better_iff, not_earlier_self]

theorem better_trans {a b c : List Place} (hab : better a b = true) (hbc : better b c = true) : better a c = true := by
  have htie : earlier a b = true → earlier b c = true → earlier a c = true := earlier_trans
  rw [better_iff] at hab hbc ⊢
  grind

/-- Of two plans of equally many places, neither earlier than the other, the starts and classes are the same (R107). -/
theorem same_or_differ_of_not_earlier {a b : List Place} (hlen : a.length = b.length) (h : ¬ earlier a b = true) :
    (a.map fun p => (p.start, p.len)) = (b.map fun p => (p.start, p.len))
      ∨ ∃ (n : Nat) (p q : Place), b[n]? = some p ∧ a[n]? = some q
        ∧ ((a.take n).map fun c => (c.start, c.len)) = ((b.take n).map fun c => (c.start, c.len))
        ∧ (p.start < q.start ∨ (p.start = q.start ∧ q.len < p.len)) := by
  induction a generalizing b with
  | nil => exact .inl (by simp [List.length_eq_zero_iff.1 hlen.symm])
  | cons q as ih =>
    match b with
    | [] => simp at hlen
    | p :: bs =>
      rw [earlier_cons_cons] at h
      by_cases hhead : p.start < q.start ∨ (p.start = q.start ∧ q.len < p.len)
      · exact .inr ⟨0, p, q, rfl, rfl, rfl, hhead⟩
      · have hstart : q.start = p.start := by omega
        have hclass : q.len = p.len := by omega
        rcases ih (b := bs) (by simpa using hlen) (fun ht => h (by simp [hstart, hclass, ht])) with heq | ⟨n, p', q', hp, hq, htake, hd⟩
        · exact .inl (by simp [hstart, hclass, heq])
        · exact .inr ⟨n + 1, p', q', by simpa using hp, by simpa using hq, by simp [hstart, hclass, htake], hd⟩

/-- What it means that a plan is not chosen over another (R107). -/
theorem worse_or_same_of_not_better {q best : List Place} (h : ¬ better q best = true) :
    planValue q < planValue best
      ∨ (planValue q = planValue best ∧ best.length < q.length)
      ∨ (planValue q = planValue best ∧ q.length = best.length ∧ planLength q < planLength best)
      ∨ (planValue q = planValue best ∧ q.length = best.length ∧ planLength q = planLength best
        ∧ ¬ earlier q best = true) := by
  rw [better_iff] at h
  grind

/-! Stage 8: the choice (R107, R108). -/

/-- Keep the plan at hand unless the next is better (R107). -/
def keepBetter (best q : List Place) : List Place := if better q best then q else best

theorem foldl_keepBetter (first : List Place) (plans : List (List Place)) :
    plans.foldl keepBetter first ∈ first :: plans
      ∧ ∀ q ∈ first :: plans, ¬ better q (plans.foldl keepBetter first) = true := by
  induction plans using List.reverseRecOn with
  | nil => simpa using not_better_self first
  | append_singleton plans p ih =>
    obtain ⟨hmem, hbest⟩ := ih
    rw [List.foldl_concat, ← List.cons_append]
    generalize plans.foldl keepBetter first = best at hmem hbest
    simp only [List.mem_append, List.mem_singleton]
    by_cases hp : better p best = true
    · rw [keepBetter, if_pos hp]
      refine ⟨.inr rfl, fun q hq hqp => ?_⟩
      rcases hq with hq | rfl
      · exact hbest q hq (better_trans hqp hp)
      · exact not_better_self q hqp
    · rw [keepBetter, if_neg hp]
      refine ⟨.inl hmem, fun q hq => ?_⟩
      rcases hq with hq | rfl
      · exact hbest q hq
      · exact hp

theorem nil_mem_admissiblePlans (x : Snapshot) : [] ∈ admissiblePlans x := by
  simp [admissiblePlans, plansFrom, spans, cutsOf, cutsFrom, spaced]

theorem choosePlan_of_short {x : Snapshot} (h : x.length < x.profile.kerf) : choosePlan x = [] := if_pos h

theorem choosePlan_best {x : Snapshot} (h : x.profile.kerf ≤ x.length) :
    choosePlan x ∈ admissiblePlans x ∧ ∀ q ∈ admissiblePlans x, ¬ better q (choosePlan x) = true := by
  have hchoose : choosePlan x = (admissiblePlans x).foldl keepBetter [] := if_neg (by omega)
  obtain ⟨hmem, hbest⟩ := foldl_keepBetter [] (admissiblePlans x)
  rw [hchoose]
  refine ⟨?_, fun q hq => hbest q (List.mem_cons_of_mem _ hq)⟩
  rcases List.mem_cons.1 hmem with hnil | hmem
  · rw [hnil]
    exact nil_mem_admissiblePlans x
  · exact hmem

theorem choosePlan_mem (x : Snapshot) : choosePlan x ∈ admissiblePlans x := by
  by_cases h : x.length < x.profile.kerf
  · exact choosePlan_of_short h ▸ nil_mem_admissiblePlans x
  · exact (choosePlan_best (by omega)).1

/-- Settles O55: the fold keeps a plan than which none before it is better, as `better` is transitive and irreflexive; and a plan
that is not better loses one of the tests or has the same starts and classes. -/
theorem chosenPlanIsBest : Obligations.ChosenPlanIsBest := by
  intro x
  refine ⟨choosePlan_of_short, fun h => ⟨(choosePlan_best h).1, fun q hq => ?_⟩⟩
  rcases worse_or_same_of_not_better ((choosePlan_best h).2 q hq) with
    hvalue | hlength | hclasses | ⟨hvalue, hlength, hclasses, hearlier⟩
  · exact .inl hvalue
  · exact .inr (.inl hlength)
  · exact .inr (.inr (.inl hclasses))
  · exact .inr (.inr (.inr ⟨hvalue, hlength, hclasses, same_or_differ_of_not_earlier hlength hearlier⟩))

/-! Stage 9: how the places of a plan lie along the strip (R105, R106). -/

/-- Where the strip goes on: at the leading edge, or behind a place that ends at `e` and the kerf that follows it. -/
def resume (x : Snapshot) : Option Nat → Nat
  | none => 0
  | some e => e + x.profile.kerf

@[simp] theorem resume_none (x : Snapshot) : resume x none = 0 := rfl
@[simp] theorem resume_some (x : Snapshot) (e : Nat) : resume x (some e) = e + x.profile.kerf := rfl

/-- Places that lie on the strip, their starts by R105. -/
structure Laid (x : Snapshot) (prev : Option Nat) (q : List Place) : Prop where
  within : ∀ pl ∈ q, pl.start + pl.foot ≤ x.length
  follow : StartsFollow x prev q

theorem laid_of_mem_admissiblePlans {x : Snapshot} {q : List Place} (h : q ∈ admissiblePlans x) : Laid x none q := by
  obtain ⟨-, hplaces, hfollow, -⟩ := (mem_admissiblePlans_iff x q).1 h
  exact ⟨fun pl hpl => IsPlace.within (hplaces pl hpl), hfollow⟩

theorem Laid.tail {x : Snapshot} {prev : Option Nat} {pl : Place} {rest : List Place} (h : Laid x prev (pl :: rest)) :
    Laid x (some (pl.start + pl.foot)) rest :=
  ⟨(List.forall_mem_cons.1 h.within).2, ((startsFollow_cons_iff x prev pl rest).1 h.follow).2⟩

/-- A place of a plan either begins where the strip goes on, or stands off by a kerf of its own at least (R105). -/
theorem Laid.head_cases {x : Snapshot} {prev : Option Nat} {pl : Place} {rest : List Place} (h : Laid x prev (pl :: rest))
    (hk : 0 < x.profile.kerf) :
    (separated x.profile.kerf prev pl.start = false ∧ pl.start = resume x prev)
      ∨ (separated x.profile.kerf prev pl.start = true ∧ resume x prev + x.profile.kerf ≤ pl.start) := by
  obtain ⟨hfit, -⟩ := List.forall_mem_cons.1 h.within
  obtain ⟨hstart, -⟩ := (startsFollow_cons_iff x prev pl rest).1 h.follow
  cases prev with
  | none =>
    simp only [separated, resume_none, bne_eq_false_iff_eq, bne_iff_ne]
    rcases (mem_startsAfter_none_iff x _).1 hstart with h0 | ⟨-, hge⟩ <;> omega
  | some e =>
    simp only [separated, resume_some, bne_eq_false_iff_eq, bne_iff_ne]
    rcases (mem_startsAfter_some_iff x e _).1 hstart with heq | ⟨-, hge⟩ <;> omega

theorem Laid.resume_le_start {x : Snapshot} {prev : Option Nat} {q : List Place} (h : Laid x prev q) (hk : 0 < x.profile.kerf) :
    ∀ pl ∈ q, resume x prev ≤ pl.start := by
  induction q generalizing prev with
  | nil => simp
  | cons pl rest ih =>
    have hhead : resume x prev ≤ pl.start := by
      rcases h.head_cases hk with ⟨-, h⟩ | ⟨-, h⟩ <;> omega
    obtain ⟨hfit, -⟩ := List.forall_mem_cons.1 h.within
    refine List.forall_mem_cons.2 ⟨hhead, fun p hp => ?_⟩
    have := ih h.tail p hp
    rw [resume_some] at this
    omega

/-! Stage 9: the cuts of a plan (R106, R109). -/

@[simp] theorem cutsFrom_spans_nil (x : Snapshot) (prev : Option Nat) :
    cutsFrom x.profile.kerf x.length prev (spans []) = [] := by
  rw [spans, List.map_nil, cutsFrom]

theorem cutsFrom_spans_cons (x : Snapshot) (prev : Option Nat) (pl : Place) (rest : List Place) :
    cutsFrom x.profile.kerf x.length prev (spans (pl :: rest))
      = (if separated x.profile.kerf prev pl.start = true then [pl.start - x.profile.kerf] else [])
        ++ (if pl.start + pl.foot < x.length then [pl.start + pl.foot] else [])
        ++ cutsFrom x.profile.kerf x.length (some (pl.start + pl.foot)) (spans rest) := by
  simp only [spans, List.map_cons, cutsFrom]

theorem mem_cutsFrom_cons_iff (x : Snapshot) (prev : Option Nat) (pl : Place) (rest : List Place) (y : Nat) :
    y ∈ cutsFrom x.profile.kerf x.length prev (spans (pl :: rest))
      ↔ (separated x.profile.kerf prev pl.start = true ∧ y = pl.start - x.profile.kerf)
        ∨ (y = pl.start + pl.foot ∧ y < x.length)
        ∨ y ∈ cutsFrom x.profile.kerf x.length (some (pl.start + pl.foot)) (spans rest) := by
  simp only [cutsFrom_spans_cons, List.mem_append, List.mem_ite_nil_right, List.mem_singleton]
  grind

theorem Laid.cut_bounds {x : Snapshot} {prev : Option Nat} {q : List Place} (h : Laid x prev q) (hk : 0 < x.profile.kerf) :
    ∀ y ∈ cutsFrom x.profile.kerf x.length prev (spans q), resume x prev ≤ y ∧ y < x.length := by
  induction q generalizing prev with
  | nil => simp
  | cons pl rest ih =>
    intro y hy
    obtain ⟨hfit, -⟩ := List.forall_mem_cons.1 h.within
    have hstart := h.resume_le_start hk pl List.mem_cons_self
    rcases (mem_cutsFrom_cons_iff x prev pl rest y).1 hy with ⟨hsep, rfl⟩ | ⟨rfl, hlt⟩ | hrest
    · rcases h.head_cases hk with ⟨hnot, -⟩ | ⟨-, hge⟩
      · simp [hsep] at hnot
      · omega
    · omega
    · obtain ⟨hge, hlt⟩ := ih h.tail y hrest
      rw [resume_some] at hge
      omega

theorem Laid.cuts_ascending {x : Snapshot} {prev : Option Nat} {q : List Place} (h : Laid x prev q) (hk : 0 < x.profile.kerf) :
    (cutsFrom x.profile.kerf x.length prev (spans q)).Pairwise (· < ·) := by
  induction q generalizing prev with
  | nil => simp
  | cons pl rest ih =>
    have hlead : ∀ y ∈ (if separated x.profile.kerf prev pl.start = true then [pl.start - x.profile.kerf] else []),
        y < pl.start + pl.foot := by
      intro y hy
      simp only [List.mem_ite_nil_right, List.mem_singleton] at hy
      have := h.head_cases hk
      grind
    have htrail : ∀ y ∈ (if pl.start + pl.foot < x.length then [pl.start + pl.foot] else []), y = pl.start + pl.foot := by simp
    have hlater : ∀ y ∈ cutsFrom x.profile.kerf x.length (some (pl.start + pl.foot)) (spans rest), pl.start + pl.foot < y := by
      intro y hy
      obtain ⟨hge, -⟩ := h.tail.cut_bounds hk y hy
      rw [resume_some] at hge
      omega
    rw [cutsFrom_spans_cons, List.pairwise_append, List.pairwise_append]
    refine ⟨⟨by split_ifs <;> simp, by split_ifs <;> simp, fun a ha b hb => ?_⟩, ih h.tail, fun a ha b hb => ?_⟩
    · exact htrail b hb ▸ hlead a ha
    · rcases List.mem_append.1 ha with ha | ha
      · exact (hlead a ha).trans (hlater b hb)
      · exact htrail a ha ▸ hlater b hb

/-- A place is clear of the end `prev` before it when it does not begin just behind that end's kerf. -/
theorem Laid.separated_iff {x : Snapshot} {prev : Option Nat} {pl : Place} {rest : List Place} (h : Laid x prev (pl :: rest))
    (hk : 0 < x.profile.kerf) :
    separated x.profile.kerf prev pl.start = true
      ↔ x.profile.kerf ≤ pl.start ∧ ∀ e ∈ prev, pl.start ≠ e + x.profile.kerf := by
  have := h.head_cases hk
  cases prev <;> simp_all [separated] <;> omega

/-- Each cut is a trailing cut of a place that ends short of the strip's end, or the leading cut of a separated place (R106). -/
theorem Laid.mem_cuts_iff {x : Snapshot} {prev : Option Nat} {q : List Place} (h : Laid x prev q) (hk : 0 < x.profile.kerf) (y : Nat) :
    y ∈ cutsFrom x.profile.kerf x.length prev (spans q)
      ↔ (∃ pl ∈ q, y = pl.start + pl.foot ∧ y < x.length)
        ∨ ∃ pl ∈ q, y + x.profile.kerf = pl.start ∧ (∀ e ∈ prev, pl.start ≠ e + x.profile.kerf)
          ∧ ∀ pr ∈ q, pl.start ≠ pr.start + pr.foot + x.profile.kerf := by
  induction q generalizing prev with
  | nil => simp
  | cons pl rest ih =>
    rw [mem_cutsFrom_cons_iff, h.separated_iff hk, ih h.tail]
    have hlater : ∀ p ∈ rest, pl.start + pl.foot + x.profile.kerf ≤ p.start := h.tail.resume_le_start hk
    have hprev : ∀ e ∈ prev, e + x.profile.kerf ≤ pl.start := by
      rintro e rfl
      exact h.resume_le_start hk pl List.mem_cons_self
    constructor
    · rintro (⟨⟨hge, hclear⟩, rfl⟩ | hend | ⟨p, hp, hend⟩ | ⟨p, hp, hy, hpl, hrest⟩)
      · refine .inr ⟨pl, List.mem_cons_self, by omega, hclear, List.forall_mem_cons.2 ⟨by omega, fun p hp => ?_⟩⟩
        have := hlater p hp
        omega
      · exact .inl ⟨pl, List.mem_cons_self, hend⟩
      · exact .inl ⟨p, List.mem_cons_of_mem _ hp, hend⟩
      · have := hlater p hp
        refine .inr ⟨p, List.mem_cons_of_mem _ hp, hy, fun e he => ?_, List.forall_mem_cons.2 ⟨hpl _ rfl, hrest⟩⟩
        have := hprev e he
        omega
    · rintro (⟨p, hp, hend⟩ | ⟨p, hp, hy, hclear, hall⟩)
      · rcases List.mem_cons.1 hp with rfl | hp
        · exact .inr (.inl hend)
        · exact .inr (.inr (.inl ⟨p, hp, hend⟩))
      · obtain ⟨hpl, hrest⟩ := List.forall_mem_cons.1 hall
        rcases List.mem_cons.1 hp with rfl | hp
        · exact .inl ⟨⟨by omega, hclear⟩, by omega⟩
        · exact .inr (.inr (.inr ⟨p, hp, hy, by simpa using hpl, hrest⟩))

/-- Settles O56: the recursion that lists the plans is read off case by case, and the cuts follow the places from the leading edge,
each place beginning where the strip goes on or a kerf of its own beyond. -/
theorem admissiblePlansAndTheirCuts : Obligations.AdmissiblePlansAndTheirCuts := by
  refine ⟨mem_admissiblePlans_iff, fun x => ?_, fun x q hq hk => ?_⟩
  · obtain ⟨hlen, hplaces, -, -⟩ := (mem_admissiblePlans_iff x _).1 (choosePlan_mem x)
    have hvalue := planValue_le x _ hplaces
    exact ⟨hlen, by omega, fun pl hpl =>
      ⟨IsPlace.within (hplaces pl hpl), fun d hd => IsPlace.clear_of_fatal (hplaces pl hpl) hd⟩⟩
  · have hlaid := laid_of_mem_admissiblePlans hq
    exact ⟨hlaid.cuts_ascending hk, fun y => by simpa [cutsOf] using hlaid.mem_cuts_iff hk y⟩

/-! Stage 9: places, kerfs and waste cover the strip (R109, R110). -/

/-- The waste of the places that remain, from where the strip goes on. -/
def wasteAfter (x : Snapshot) (prev : Option Nat) (q : List Place) : List (Nat × Nat) :=
  wasteFrom x.profile.kerf x.length (min x.length (resume x prev)) (spans q)

theorem wasteOf_eq_wasteAfter (x : Snapshot) (q : List Place) :
    wasteOf x.profile.kerf x.length (spans q) = wasteAfter x none q := by
  simp [wasteAfter, wasteOf]

theorem wasteAfter_nil (x : Snapshot) (prev : Option Nat) :
    wasteAfter x prev [] = if resume x prev < x.length then [(resume x prev, x.length)] else [] := by
  simp only [wasteAfter, spans, List.map_nil, wasteFrom]
  split_ifs with h h' h' <;> grind

theorem Laid.wasteAfter_cons {x : Snapshot} {prev : Option Nat} {pl : Place} {rest : List Place} (h : Laid x prev (pl :: rest))
    (hk : 0 < x.profile.kerf) :
    wasteAfter x prev (pl :: rest)
      = (if resume x prev + x.profile.kerf < pl.start then [(resume x prev, pl.start - x.profile.kerf)] else [])
        ++ wasteAfter x (some (pl.start + pl.foot)) rest := by
  obtain ⟨hfit, -⟩ := List.forall_mem_cons.1 h.within
  have hstart := h.resume_le_start hk pl List.mem_cons_self
  have hat : min x.length (resume x prev) = resume x prev := by omega
  have hlt : resume x prev < pl.start - x.profile.kerf ↔ resume x prev + x.profile.kerf < pl.start := by omega
  simp only [wasteAfter, spans, List.map_cons, wasteFrom, hat, hlt, resume_some]

theorem Laid.waste_bounds {x : Snapshot} {prev : Option Nat} {q : List Place} (h : Laid x prev q) (hk : 0 < x.profile.kerf) :
    ∀ iv ∈ wasteAfter x prev q, resume x prev ≤ iv.1 ∧ iv.1 < iv.2 ∧ iv.2 ≤ x.length := by
  induction q generalizing prev with
  | nil =>
    intro iv hiv
    simp only [wasteAfter_nil, List.mem_ite_nil_right, List.mem_singleton] at hiv
    obtain ⟨hlt, rfl⟩ := hiv
    exact ⟨le_rfl, hlt, le_rfl⟩
  | cons pl rest ih =>
    intro iv hiv
    obtain ⟨hfit, -⟩ := List.forall_mem_cons.1 h.within
    simp only [h.wasteAfter_cons hk, List.mem_append, List.mem_ite_nil_right, List.mem_singleton] at hiv
    rcases hiv with ⟨hlt, rfl⟩ | hiv
    · dsimp only
      omega
    · have hstart := h.resume_le_start hk pl List.mem_cons_self
      obtain ⟨hge, hrest⟩ := ih h.tail iv hiv
      rw [resume_some] at hge
      exact ⟨by omega, hrest⟩

theorem Laid.waste_apart {x : Snapshot} {prev : Option Nat} {q : List Place} (h : Laid x prev q) (hk : 0 < x.profile.kerf) :
    (wasteAfter x prev q).Pairwise fun a b => a.2 < b.1 := by
  induction q generalizing prev with
  | nil => rw [wasteAfter_nil]; split_ifs <;> simp
  | cons pl rest ih =>
    rw [h.wasteAfter_cons hk]
    split_ifs with hlt
    · refine List.pairwise_cons.2 ⟨fun iv hiv => ?_, ih h.tail⟩
      obtain ⟨hge, -⟩ := h.tail.waste_bounds hk iv hiv
      rw [resume_some] at hge
      dsimp only
      omega
    · exact ih h.tail

/-- How many of the intervals hold a position. -/
def coverCount (y : Nat) (ivs : List (Nat × Nat)) : Nat :=
  (ivs.filter fun iv => decide (iv.1 ≤ y) && decide (y < iv.2)).length

theorem coverCount_nil (y : Nat) : coverCount y [] = 0 := rfl

theorem coverCount_cons (y : Nat) (iv : Nat × Nat) (ivs : List (Nat × Nat)) :
    coverCount y (iv :: ivs) = (if iv.1 ≤ y ∧ y < iv.2 then 1 else 0) + coverCount y ivs := by
  by_cases h : iv.1 ≤ y ∧ y < iv.2
  · simp [coverCount, h, Nat.add_comm]
  · simp only [coverCount, if_neg h, Nat.zero_add]
    rw [List.filter_cons_of_neg (by simpa using h)]

theorem coverCount_append (y : Nat) (ivs jvs : List (Nat × Nat)) : coverCount y (ivs ++ jvs) = coverCount y ivs + coverCount y jvs := by
  simp [coverCount]

theorem coverCount_ite (y : Nat) (c : Prop) [Decidable c] (iv : Nat × Nat) :
    coverCount y (if c then [iv] else []) = if c ∧ iv.1 ≤ y ∧ y < iv.2 then 1 else 0 := by
  by_cases hc : c <;> simp [hc, coverCount_nil, coverCount_cons]

/-- The places as intervals. -/
def placeIntervals (q : List Place) : List (Nat × Nat) := (spans q).map fun a => (a.1, a.1 + a.2)

/-- The kerfs of the places' cuts, after a place that ends at `prev` or from the leading edge (R109). -/
def kerfIntervals (x : Snapshot) (prev : Option Nat) (q : List Place) : List (Nat × Nat) :=
  (cutsFrom x.profile.kerf x.length prev (spans q)).map fun c => (c, c + x.profile.kerf)

theorem coverCount_placeIntervals_cons (y : Nat) (pl : Place) (rest : List Place) :
    coverCount y (placeIntervals (pl :: rest))
      = (if pl.start ≤ y ∧ y < pl.start + pl.foot then 1 else 0) + coverCount y (placeIntervals rest) :=
  coverCount_cons y _ _

theorem coverCount_kerfIntervals_cons (x : Snapshot) (y : Nat) (prev : Option Nat) (pl : Place) (rest : List Place) :
    coverCount y (kerfIntervals x prev (pl :: rest))
      = (if separated x.profile.kerf prev pl.start = true
            ∧ pl.start - x.profile.kerf ≤ y ∧ y < pl.start - x.profile.kerf + x.profile.kerf then 1 else 0)
        + (if pl.start + pl.foot < x.length ∧ pl.start + pl.foot ≤ y ∧ y < pl.start + pl.foot + x.profile.kerf then 1 else 0)
        + coverCount y (kerfIntervals x (some (pl.start + pl.foot)) rest) := by
  simp only [kerfIntervals, cutsFrom_spans_cons, List.map_append, coverCount_append, apply_ite (List.map _),
    List.map_cons, List.map_nil, coverCount_ite]

/-- From where the strip goes on, every position of it lies in exactly one place, kerf or waste interval; before, in none. -/
theorem Laid.coverCount_eq {x : Snapshot} {prev : Option Nat} {q : List Place} (h : Laid x prev q) (hk : 0 < x.profile.kerf)
    {y : Nat} (hy : y < x.length) :
    coverCount y (placeIntervals q) + coverCount y (kerfIntervals x prev q) + coverCount y (wasteAfter x prev q)
      = if resume x prev ≤ y then 1 else 0 := by
  induction q generalizing prev with
  | nil =>
    simp only [placeIntervals, spans, List.map_nil, kerfIntervals, cutsFrom, coverCount_nil, wasteAfter_nil, coverCount_ite]
    grind
  | cons pl rest ih =>
    have hrest := ih h.tail
    obtain ⟨hfit, -⟩ := List.forall_mem_cons.1 h.within
    rw [coverCount_placeIntervals_cons, coverCount_kerfIntervals_cons, h.wasteAfter_cons hk, coverCount_append, coverCount_ite]
    rw [resume_some] at hrest
    dsimp only
    rcases h.head_cases hk with ⟨hsep, hstart⟩ | ⟨hsep, hstart⟩
    · simp only [hsep, Bool.false_eq_true, false_and, if_false]
      grind
    · simp only [hsep, true_and]
      grind

/-- Settles O57: at each place the count of intervals over a position is carried from where the strip goes on to behind the place's
kerf, and the waste intervals lie between a kerf and the next leading cut. -/
theorem placesKerfsAndWasteCoverStrip : Obligations.PlacesKerfsAndWasteCoverStrip := by
  intro x q hq hk
  have hlaid := laid_of_mem_admissiblePlans hq
  dsimp only
  rw [wasteOf_eq_wasteAfter]
  refine ⟨fun y hy => ?_, fun iv hiv => (hlaid.waste_bounds hk iv hiv).2, hlaid.waste_apart hk⟩
  have hcount := hlaid.coverCount_eq hk hy
  rw [← coverCount_append, ← coverCount_append, resume_none, if_pos (Nat.zero_le y)] at hcount
  exact hcount

end Sys2Proof.Machine

/-! PROOFS. Labels (chapter 10): the identification code, its fields and its check (R194). -/

namespace Sys2Proof.Machine

open Sys2Proof

/-- The last `w` decimal digits of a number, leading zeros included. -/
def decimals (w n : Nat) : List Nat := (List.range w).map fun k => n / 10 ^ (w - 1 - k) % 10

/-- The number that a list of decimal digits writes. -/
def decimalValue (ds : List Nat) : Nat := ds.foldl (fun n d => 10 * n + d) 0

theorem labelDigits_eq_decimals (c : Nat) : labelDigits c = decimals 13 c := rfl

@[simp] theorem decimals_length (w n : Nat) : (decimals w n).length = w := by
  simp [decimals]

theorem lt_ten_of_mem_decimals {w n d : Nat} (h : d ∈ decimals w n) : d < 10 := by
  obtain ⟨k, -, rfl⟩ := List.mem_map.1 h
  exact Nat.mod_lt _ (by decide)

/-- Digits are cut into two fields: the number is divided with remainder by the power of ten of the right field's width. -/
theorem decimals_add (v w n : Nat) : decimals (v + w) n = decimals v (n / 10 ^ w) ++ decimals w n := by
  simp only [decimals, List.range_add, List.map_append, List.map_map]
  congr 1
  · refine List.map_congr_left fun k hk => ?_
    have hk : k < v := List.mem_range.1 hk
    have hexp : v + w - 1 - k = w + (v - 1 - k) := by omega
    rw [hexp, pow_add, Nat.div_div_eq_div_mul]
  · refine List.map_congr_left fun k _ => ?_
    have hexp : v + w - 1 - (v + k) = w - 1 - k := by omega
    simp only [Function.comp_apply, hexp]

theorem decimalValue_decimals (w n : Nat) : decimalValue (decimals w n) = n % 10 ^ w := by
  induction w generalizing n with
  | zero => simp [decimals, decimalValue, Nat.mod_one]
  | succ w ih =>
    have hlast : decimals 1 n = [n % 10] := by simp [decimals]
    calc decimalValue (decimals (w + 1) n)
        = 10 * decimalValue (decimals w (n / 10)) + n % 10 := by
          rw [decimals_add, hlast, pow_one]; simp [decimalValue]
      _ = n % 10 ^ (w + 1) := by
          rw [ih, pow_succ', Nat.mod_mul]; omega

theorem drop_labelDigits {c u w : Nat} (h : u + w = 13) : (labelDigits c).drop u = decimals w c := by
  rw [labelDigits_eq_decimals, ← h, decimals_add, List.drop_left' (decimals_length _ _)]

/-- A field of `v` digits, behind `u` digits and before `w`. -/
theorem decimalValue_field_labelDigits {c u v w : Nat} (h : u + (v + w) = 13) :
    decimalValue (((labelDigits c).drop u).take v) = c / 10 ^ w % 10 ^ v := by
  rw [drop_labelDigits h, decimals_add, List.take_left' (decimals_length _ _), decimalValue_decimals]

/-- The check of a number (R194). -/
def labelCheck (n : Nat) : Nat := 98 - n * 100 % 97

theorem labelCheck_lt (n : Nat) : labelCheck n < 100 := by
  unfold labelCheck
  omega

/-- The check makes the remainder up to 98, which is 1 modulo 97. -/
theorem add_labelCheck_mod (n : Nat) : (n * 100 + labelCheck n) % 97 = 1 := by
  unfold labelCheck
  omega

theorem gradeNumber_lt (g : Grade) : gradeNumber g < 10 := by
  cases g <;> decide

section Code

variable {order serial species grade : Nat}

theorem labelCode_eq :
    labelCode order serial species grade
      = labelNumber order serial species grade * 100 + labelCheck (labelNumber order serial species grade) := rfl

theorem labelCode_div_hundred : labelCode order serial species grade / 100 = labelNumber order serial species grade := by
  have hcheck := labelCheck_lt (labelNumber order serial species grade)
  rw [labelCode_eq]
  omega

theorem labelCode_mod_hundred :
    labelCode order serial species grade % 100 = labelCheck (labelNumber order serial species grade) := by
  have hcheck := labelCheck_lt (labelNumber order serial species grade)
  rw [labelCode_eq]
  omega

theorem labelNumber_lt (ho : order < 100000) (hs : serial < 10000) (hp : species < 10) (hg : grade < 10) :
    labelNumber order serial species grade < 10 ^ 11 := by
  unfold labelNumber
  omega

/-- The number's fields in their widths, each read from behind the fields after it (R194). -/
theorem labelNumber_fields (ho : order < 100000) (hs : serial < 10000) (hp : species < 10) (hg : grade < 10) :
    labelNumber order serial species grade / 10 ^ 6 % 10 ^ 5 = order
      ∧ labelNumber order serial species grade / 10 ^ 2 % 10 ^ 4 = serial
      ∧ labelNumber order serial species grade / 10 ^ 1 % 10 ^ 1 = species
      ∧ labelNumber order serial species grade / 10 ^ 0 % 10 ^ 1 = grade := by
  unfold labelNumber
  omega

/-- A field of the code before its check is a field of the number: `v` digits, behind `u` and before `w` of its 11. -/
theorem decimalValue_field_labelCode {u v w : Nat} (h : u + (v + w) = 11) :
    decimalValue (((labelDigits (labelCode order serial species grade)).drop u).take v)
      = labelNumber order serial species grade / 10 ^ w % 10 ^ v := by
  rw [decimalValue_field_labelDigits (w := 2 + w) (by omega), pow_add, ← Nat.div_div_eq_div_mul]
  exact congrArg (· / 10 ^ w % 10 ^ v) labelCode_div_hundred

theorem decimalValue_check_labelCode :
    decimalValue ((labelDigits (labelCode order serial species grade)).drop 11)
      = labelCheck (labelNumber order serial species grade) := by
  rw [drop_labelDigits (w := 2) rfl, decimalValue_decimals]
  exact labelCode_mod_hundred

theorem decimalValue_number_labelCode (hn : labelNumber order serial species grade < 10 ^ 11) :
    decimalValue ((labelDigits (labelCode order serial species grade)).take 11) = labelNumber order serial species grade := by
  have hfield := decimalValue_field_labelCode (order := order) (serial := serial) (species := species) (grade := grade)
    (u := 0) (v := 11) (w := 0) rfl
  rwa [List.drop_zero, pow_zero, Nat.div_one, Nat.mod_eq_of_lt hn] at hfield

theorem decimalValue_labelCode (hn : labelNumber order serial species grade < 10 ^ 11) :
    decimalValue (labelDigits (labelCode order serial species grade)) = labelCode order serial species grade := by
  have hcheck := labelCheck_lt (labelNumber order serial species grade)
  rw [labelDigits_eq_decimals, decimalValue_decimals, Nat.mod_eq_of_lt]
  rw [labelCode_eq]
  omega

end Code

/-- Settles O58: the digits of a field are the code divided by the power of ten behind the field; before the last two digits stands
the number, whose fields keep to their widths, and the check makes the remainder up to 98. -/
theorem labelCodeCarriesCheck : Obligations.LabelCodeCarriesCheck := by
  intro b u o ho hs hp _
  have hg := gradeNumber_lt o.grade
  have hn := labelNumber_lt ho hs hp hg
  obtain ⟨horder, hserial, hspecies, hgrade⟩ := labelNumber_fields ho hs hp hg
  have hnumber := decimalValue_number_labelCode hn
  have hcode := decimalValue_labelCode hn
  have hgradeDigit := (decimalValue_field_labelCode (u := 10) rfl).trans hgrade
  refine ⟨decimals_length 13 _, fun d hd => lt_ten_of_mem_decimals (w := 13) hd,
    (decimalValue_field_labelCode (u := 0) rfl).trans horder, (decimalValue_field_labelCode (u := 5) rfl).trans hserial,
    (decimalValue_field_labelCode (u := 9) rfl).trans hspecies, fun hA => ?_, fun hB => ?_, fun hC => ?_, ?_, ?_, ?_⟩
  · exact hgradeDigit.trans (congrArg gradeNumber hA)
  · exact hgradeDigit.trans (congrArg gradeNumber hB)
  · exact hgradeDigit.trans (congrArg gradeNumber hC)
  · exact decimalValue_check_labelCode.trans (congrArg labelCheck hnumber.symm)
  · exact hcode.trans (congrArg (fun n => n * 100 + labelCheck n) hnumber.symm)
  · exact (congrArg (· % 97) hcode).trans (add_labelCheck_mod _)

end Sys2Proof.Machine

/-! PROOFS. The machine as a whole: what every command comes to, PERMIT and its conditions (3.6), the model's own fields between two
commands, and the state after reset. -/

namespace Sys2Proof.Machine

open Sys2Proof

/-- Settles O1: both halves are the two branches of `step`. -/
theorem stepRunsFrontCommand : Obligations.StepRunsFrontCommand := ⟨fun _ _ => rfl, fun _ => rfl⟩

/-! The conditions of PERMIT as the report tests them (R70, R72). -/

theorem enrolledLink_isSome_iff (r : Role) (p : Part) :
    (enrolledLink r p).isSome ↔ ∃ l, (p.link l).role = some r ∧ (p.link l).state = .enrolled := by
  simp [enrolledLink, List.find?_isSome]

theorem mem_toolsOf_iff (r : Role) (p : Part) (n : Nat) :
    n ∈ toolsOf r p ↔ ∃ l, roleLink r p = some l ∧ n ∈ (p.link l).tools := by
  unfold toolsOf
  cases roleLink r p <;> simp

theorem unmet_eq_nil_iff (b : Bool) (c : PermitCond) : unmet b c = [] ↔ b = true := by
  cases b <;> simp [unmet]

theorem runnableCtx_iff (c : CtxNo) (p : Part) :
    runnableCtx c p = true ↔ ∃ f, (p.ctx c).profile = some f ∧ f.code ∈ toolsOf .moulder p ∧ f.code ∈ toolsOf .endmatcher p := by
  unfold runnableCtx
  cases (p.ctx c).profile <;> simp

/-- The report is empty exactly when every condition of R70 holds (R72). -/
theorem permitReport_eq_nil_iff (p : Part) : permitReport p = [] ↔ PermitConditions p := by
  have loaded : runnableCtx p.cpl.active p = true → activeLoaded p = true := by
    rw [runnableCtx_iff]
    rintro ⟨f, h, -⟩
    simp [activeLoaded, h]
  have tooled : activeLoaded p = true ∧ (!activeLoaded p || runnableCtx p.cpl.active p) = true
      ↔ runnableCtx p.cpl.active p = true := by
    refine ⟨fun h => by simpa [h.1] using h.2, fun h => ⟨loaded h, by simp [h]⟩⟩
  simp only [permitReport, List.flatten_cons, List.flatten_nil, List.append_nil, List.append_eq_nil_iff, unmet_eq_nil_iff,
    enrolledLink_isSome_iff, decide_eq_true_eq, Option.isNone_iff_eq_none]
  rw [← and_assoc (a := activeLoaded p = true), tooled, runnableCtx_iff]
  simp only [mem_toolsOf_iff]
  exact Iff.rfl

/-! What a re-evaluation leaves (R70 to R72). -/

/-- What the report reads of a part is the same after frames composed. -/
structure SameConditions (p q : Part) : Prop where
  cpl : q.cpl = p.cpl
  fault : q.ztr.fault = p.ztr.fault
  geoValid : q.ztr.geoValid = p.ztr.geoValid
  free : q.rst.free = p.rst.free
  links : ∀ l, (q.link l).role = (p.link l).role ∧ (q.link l).state = (p.link l).state ∧ (q.link l).tools = (p.link l).tools
  clear : q.lif.clear = p.lif.clear

theorem SameConditions.runnable {p q : Part} (h : SameConditions p q) (c : CtxNo) : runnableCtx c q = runnableCtx c p := by
  simp only [runnableCtx, toolsOf, roleLink, Part.ctx, h.cpl, fun l => (h.links l).1, fun l => (h.links l).2.2]

theorem SameConditions.report {p q : Part} (h : SameConditions p q) : permitReport q = permitReport p := by
  simp only [permitReport, activeLoaded, enrolledLink, Part.ctx, h.cpl, h.fault, h.geoValid, h.free, h.runnable,
    fun l => (h.links l).1, fun l => (h.links l).2.1]

theorem SameConditions.permitNow {p q : Part} (h : SameConditions p q) : permitNow q = permitNow p := by
  simp only [Machine.permitNow, h.report, h.clear, h.cpl]

/-- Frames composed and PERMIT's own fields are all that `After` lets change, so conditions read through it are those before it. -/
theorem After.sameConditions {p q : Part} (h : After p q) (k : q.cpl = p.cpl) : SameConditions p q where
  cpl := k
  fault := by rw [h.1.2.2.1]
  geoValid := by rw [h.1.2.2.1]
  free := by rw [h.1.2.1]
  links l := by rw [(h.2.1 l).1]; exact ⟨rfl, rfl, rfl⟩
  clear := by rw [h.2.2]

theorem compose_cpl (n : Notice) (p : Part) : (compose n p).cpl = p.cpl := by
  unfold compose sendNotice transmit
  dsimp only
  split
  · rfl
  · split <;> rfl

theorem raise_cpl (n : Notice) (p : Part) : (raise n p).cpl = p.cpl := by
  unfold raise
  split
  · exact compose_cpl n p
  · rfl

/-- A re-evaluation is the recomputation, with a LINSTA raised or not (R72, R213). -/
theorem reevaluate_eq (b : Bool) (p : Part) :
    reevaluate b p = recompute p ∨ reevaluate b p = raise (linsta (recompute p)) (recompute p) := by
  unfold reevaluate
  dsimp only
  split
  · exact .inr rfl
  · exact .inl rfl

theorem reevaluate_sameConditions (b : Bool) (p : Part) : SameConditions (recompute p) (reevaluate b p) := by
  rcases reevaluate_eq b p with h | h <;> rw [h]
  · exact (After.refl _).sameConditions rfl
  · exact (raise_after _ _).sameConditions (raise_cpl _ _)

theorem reevaluate_cpl (b : Bool) (p : Part) : (reevaluate b p).cpl = (recompute p).cpl := (reevaluate_sameConditions b p).cpl

/-- After a re-evaluation PERMIT is on only with its conditions met (R70). -/
theorem reevaluate_permit (b : Bool) (p : Part) (h : (reevaluate b p).cpl.permit = true) : PermitConditions (reevaluate b p) := by
  have k := reevaluate_sameConditions b p
  rw [← permitReport_eq_nil_iff, k.report]
  rw [k.cpl] at h
  simp only [recompute, permitNow, Bool.and_eq_true, List.isEmpty_iff] at h
  exact h.1

/-- After a re-evaluation report and runnability are those of the part left, and PERMIT is on where its conditions hold and no LINE
CLEAR waits (R70 to R72). -/
theorem reevaluate_follows (b : Bool) (p : Part) :
    let q := reevaluate b p
    (PermitConditions q → q.lif.clear = none → q.cpl.permit = true) ∧ (q.cpl.report = [] ↔ PermitConditions q)
      ∧ q.cpl.report = permitReport q ∧ q.cpl.runnable = runnableCtx q.cpl.active q := by
  intro q
  have k : SameConditions (recompute p) q := reevaluate_sameConditions b p
  have report : q.cpl.report = permitReport q := by rw [k.report, k.cpl]; rfl
  refine ⟨fun h c => ?_, by rw [report, permitReport_eq_nil_iff], report, ?_⟩
  · rw [← permitReport_eq_nil_iff, k.report] at h
    rw [k.clear] at c
    rw [k.cpl]
    change permitReport p = [] at h
    change p.lif.clear = none at c
    simp [recompute, permitNow, h, c]
  · rw [k.runnable, k.cpl]; rfl

/-! What every command comes to. -/

/-- A command that runs ends in a re-evaluation. -/
theorem finish_eq_reevaluate (p : Part) : ∃ q, finish p = reevaluate false q := ⟨_, rfl⟩

/-- The end of every command that runs: a part that `finish` leaves; an assertion of the reset input; or, while that input stands, the
part as it was but for a signal level recorded (11.10). -/
inductive Outcomes (p : Part) : Part → Prop where
  | finished (q : Part) : Outcomes p (finish q)
  | asserted : Outcomes p (assertReset p)
  | held (h : p.inReset = true) : Outcomes p p
  | recorded (l : LinkNo) (b : Bool) (h : p.inReset = true) : Outcomes p (recordSignal l b p)

theorem run_outcomes (f : Part → Part) (p : Part) : Outcomes p (run f p) := by
  unfold run
  split
  · next h => exact .held h
  · exact .finished _

theorem signalRises_outcomes (l : LinkNo) (p : Part) : Outcomes p (signalRises l p) := by
  unfold signalRises
  split
  · next h => exact .recorded l true h
  · exact run_outcomes _ p

theorem signalFalls_outcomes (l : LinkNo) (p : Part) : Outcomes p (signalFalls l p) := by
  unfold signalFalls
  split
  · next h => exact .recorded l false h
  · exact run_outcomes _ p

theorem exec_outcomes {c : Instr} {s t : State} (h : exec c s = .next t) : t.pending = s.pending ∧ Outcomes s.part t.part := by
  have ended {f : Part → Part} (k : next f s = .next t) (o : Outcomes s.part (f s.part)) :
      t.pending = s.pending ∧ Outcomes s.part t.part := by cases k; exact ⟨rfl, o⟩
  cases c with
  | powerOnReset => exact ended h (.finished _)
  | resetInputAsserted => exact ended h .asserted
  | linkSignalUp l => exact ended h (signalRises_outcomes l _)
  | linkSignalLoss l => exact ended h (signalFalls_outcomes l _)
  | _ => exact ended h (run_outcomes _ _)

/-- A level recorded while the reset input stands is no condition of PERMIT. -/
theorem recordSignal_sameConditions (l : LinkNo) (b : Bool) (p : Part) : SameConditions p (recordSignal l b p) := by
  refine ⟨rfl, rfl, rfl, rfl, fun k => ?_, rfl⟩
  by_cases e : l = k
  · subst e; simp [recordSignal]
  · simp [recordSignal, Part.link_setLink_other _ _ _ _ e]

theorem SameConditions.permitLaw {p q : Part} (h : SameConditions p q) (law : p.cpl.permit = true → PermitConditions p) :
    q.cpl.permit = true → PermitConditions q := by
  rw [h.cpl, ← permitReport_eq_nil_iff, h.report, permitReport_eq_nil_iff]
  exact law

theorem Outcomes.permitLaw {p q : Part} (h : Outcomes p q) (law : p.cpl.permit = true → PermitConditions p) :
    q.cpl.permit = true → PermitConditions q := by
  cases h with
  | finished r =>
    obtain ⟨q, e⟩ := finish_eq_reevaluate r
    rw [e]
    exact reevaluate_permit false q
  | asserted => exact fun k => absurd k Bool.false_ne_true
  | held => exact law
  | recorded l b => exact (recordSignal_sameConditions l b p).permitLaw law

/-- A property that every command keeps is kept by every step. -/
theorem step_keeps {P : Part → Prop} (keep : ∀ (c : Instr) (s t : State), P s.part → exec c s = .next t → P t.part)
    {s t : State} (h : P s.part) (k : step s = .next t) : P t.part := by
  unfold step at k
  split at k
  · cases k; exact h
  · next c rest _ => exact keep c { s with pending := rest } t h k

/-- Settles O4: a command that runs ends in a re-evaluation; the others turn PERMIT off or leave its conditions. -/
theorem permitLawKeptByEveryStep : Obligations.PermitLawKeptByEveryStep := fun _ _ law k =>
  step_keeps (P := fun p => p.cpl.permit = true → PermitConditions p) (fun _ _ _ law h => (exec_outcomes h).2.permitLaw law) law k

/-- Settles O5: a command that leaves the part running ends in a re-evaluation. -/
theorem permitFollowsItsConditions : Obligations.PermitFollowsItsConditions := by
  intro c s t h running
  obtain ⟨-, o⟩ := exec_outcomes h
  generalize s.part = p at o
  generalize t.part = q at o running
  cases o with
  | finished r =>
    obtain ⟨q, e⟩ := finish_eq_reevaluate r
    rw [e]
    exact reevaluate_follows false q
  | asserted => cases running
  | held k => rw [k] at running; cases running
  | recorded l b k => rw [show (recordSignal l b p).inReset = p.inReset from rfl, k] at running; cases running

/-! The model's own fields between two commands (log entries 2 and 6). -/

theorem After.atOnce {p q : Part} (h : After p q) : q.ztr.atOnce = p.ztr.atOnce := by rw [h.1.2.2.1]

theorem settleAll_atOnce (p : Part) : (settleAll p).ztr.atOnce = [] := rfl

theorem finish_settled (p : Part) : Settled (finish p) := by
  have none_left := settleAll_atOnce p
  unfold finish
  generalize settleAll p = q at none_left ⊢
  have behind : After q (reevaluate false (answerAll (flushDeferred q))) :=
    ((flushDeferred_after _).trans (answerAll_after _)).trans (reevaluate_after _ _)
  exact ⟨behind.atOnce.trans none_left, reevaluate_deferred_none _ _ ((answerAll_deferred _).trans (flushDeferred_deferred _))⟩

theorem Outcomes.settled {p q : Part} (h : Outcomes p q) (k : Settled p) : Settled q := by
  cases h with
  | finished r => exact finish_settled r
  | asserted => exact k
  | held => exact k
  | recorded l b => exact k

/-- Settles O6: `finish` carries out or hands on what was taken at once, and composes what was deferred. -/
theorem settledKeptByEveryStep : Obligations.SettledKeptByEveryStep := fun _ _ h k =>
  step_keeps (P := Settled) (fun _ _ _ h e => (exec_outcomes e).2.settled h) h k

end Sys2Proof.Machine

/-! PROOFS. The state after reset, block by block. -/

namespace Sys2Proof.Machine

open Sys2Proof

/-! What the accessors read of the part after reset. -/

@[simp] theorem reset_slot (i : SlotNo) : Part.reset.slot i = Slot.clean := by
  simp [Part.slot, Part.reset, storeReset]

@[simp] theorem reset_ctx (c : CtxNo) : Part.reset.ctx c = ⟨none, 0⟩ := by
  simp [Part.ctx, Part.reset, plannerReset]

@[simp] theorem reset_order (o : OrderNo) : Part.reset.order o = none := by
  simp [Part.order, Part.reset, ordersReset]

@[simp] theorem reset_bay (b : BayNo) : Part.reset.bay b = bayReset := by
  simp [Part.bay, Part.reset]

@[simp] theorem reset_link (l : LinkNo) : Part.reset.link l = linkReset0 := by
  simp [Part.link, Part.reset, linksReset]

@[simp] theorem reset_kickQueue (b : BayNo) : Part.reset.kickQueue b = [] := by
  simp [Part.kickQueue, Part.reset, actionsReset]

@[simp] theorem reset_kickPulse (b : BayNo) : Part.reset.acu.kickPulse[b] = none := by
  simp [Part.reset, actionsReset]

@[simp] theorem reset_zone (z : Zone) : Part.reset.zone z = zoneReset := by cases z <;> rfl

theorem reset_free : Part.reset.rst.free = List.finRange 1024 := by
  refine List.ext_getElem (by simp [Part.reset, storeReset]) fun n h _ => ?_
  have h : n < 1024 := by simpa [Part.reset, storeReset] using h
  apply Fin.ext
  simp only [Part.reset, storeReset, List.getElem_map, List.getElem_range, List.getElem_finRange]
  exact Nat.mod_eq_of_lt h

@[simp] theorem reset_baysOf (o : OrderNo) : baysOf o Part.reset = [] := by
  simp [baysOf, bayReset, holdsOrder]

/-- No record is live after reset, and every slot is free (R1, R2). -/
theorem reset_storeLaws : StoreLaws Part.reset :=
  .empty (fun i => by simp [Slot.clean]) (fun i => by simp [Slot.clean]) (by rw [reset_free]) (fun c => by simp)

/-- No order is held after reset, and every bay is IDLE without a bundle (R173, R174). -/
theorem reset_orderLaws : OrderLaws Part.reset where
  counts o r h := by simp at h
  emptySlots o _ := reset_baysOf o
  idle b _ := by simp [bayReset]
  cancelled o r h := by simp at h
  complete o r h := by simp at h

theorem reset_outputsOff : OutputsOff Part.reset := ⟨rfl, rfl, rfl, reset_kickPulse⟩

/-- Settles O3. -/
theorem invariantsHoldAtReset : Obligations.InvariantsHoldAtReset :=
  ⟨fun h => absurd h Bool.false_ne_true, ⟨rfl, rfl⟩, reset_outputsOff, reset_storeLaws, reset_orderLaws⟩

/-- Settles O2: the accessors' values at reset, and the plain fields of each block. -/
theorem resetIsPowerOnState : Obligations.ResetIsPowerOnState := by
  have slots (i : SlotNo) : (Part.reset.slot i).contents = .nothing ∧ (Part.reset.slot i).gen = 0 ∧ CleanSlot i Part.reset := by
    simp [CleanSlot, Slot.clean, shadowOf]
  have free : Part.reset.rst.free.map (·.val) = List.range 1024 := by rw [reset_free]; simp
  have zones (z : Zone) : Part.reset.counter z = 0 ∧ (Part.reset.zone z).mark = 0 ∧ Part.reset.queue z = [] := by
    simp [Part.counter, Part.queue, zoneReset]
  have eyes : ∀ e ∈ [trackerReset.eyeA, trackerReset.eyeB, trackerReset.eyeC, trackerReset.eyeE, trackerReset.eyeX],
      e = ⟨false, 0, 0⟩ := by simp [trackerReset, eyeReset]
  exact ⟨rfl, rfl, slots, free, rfl, rfl, rfl, rfl, rfl, rfl, rfl, rfl, rfl, zones, rfl, eyes, rfl, rfl, rfl, rfl, rfl, rfl, rfl,
    rfl, rfl, rfl, rfl, reset_ctx, rfl, rfl, rfl, rfl, rfl, rfl, rfl, rfl, rfl, rfl, rfl, rfl, rfl, rfl, reset_kickQueue, rfl, rfl,
    rfl, reset_kickPulse, rfl, rfl, rfl, rfl, reset_order, rfl, reset_bay, reset_link, rfl, rfl, rfl, rfl, rfl⟩

end Sys2Proof.Machine

/-! PROOFS. The laws of records and bundles (1.1, 1.2, 8.6): the relations in which each operation is said to keep them, and the
operations that touch neither records nor the books of bundles. -/

namespace Sys2Proof.Machine

open Sys2Proof

/-- A fold of steps that each stay within a relation stays within it. -/
theorem foldl_within {α β : Type} {R : β → β → Prop} (refl : ∀ x, R x x) (trans : ∀ {x y z}, R x y → R y z → R x z)
    {f : β → α → β} (step : ∀ x a, R x (f x a)) (as : List α) (x : β) : R x (as.foldl f x) := by
  induction as generalizing x with
  | nil => exact refl x
  | cons a as ih => exact trans (step x a) (ih (f x a))

/-! The relations. -/

/-- The fields of an order that its laws speak of (R163, R167, R168). -/
def Order.books (r : Order) : OrderState × Nat × Nat × Nat := (r.state, r.ordered, r.opened, r.retired)

/-- The order of a bay's bundle. -/
def Bay.owner (b : Bay) : Option OrderNo := b.bundle.map (·.slot)

/-- Orders and bays stand the same in all that their laws speak of; an occupied bay does not become IDLE. -/
structure SameBundles (p q : Part) : Prop where
  books : ∀ o : OrderNo, (q.order o).map Order.books = (p.order o).map Order.books
  owner : ∀ b : BayNo, (q.bay b).owner = (p.bay b).owner
  idle : ∀ b : BayNo, (q.bay b).state = .idle → (p.bay b).state = .idle

/-- The Record Store stands the same in all that its laws speak of. -/
structure SameRecords (p q : Part) : Prop where
  slot : ∀ i : SlotNo, (q.slot i).gen = (p.slot i).gen ∧ (q.slot i).contents = (p.slot i).contents
    ∧ (q.slot i).shadow = (p.slot i).shadow
  free : q.rst.free = p.rst.free
  refs : ∀ c : CtxNo, (q.ctx c).refs = (p.ctx c).refs

/-- Neither records nor the books of bundles are touched. -/
structure Kept (p q : Part) : Prop where
  records : SameRecords p q
  bundles : SameBundles p q

/-- The laws of the Record Store go over, and the books of bundles are not touched. -/
structure Lawful (p q : Part) : Prop where
  store : StoreLaws p → StoreLaws q
  bundles : SameBundles p q

/-- The laws of the Record Store go over, and those of orders and bays. -/
structure KeepsLaws (p q : Part) : Prop where
  store : StoreLaws p → StoreLaws q
  order : OrderLaws p → OrderLaws q

theorem SameBundles.refl (p : Part) : SameBundles p p := ⟨fun _ => rfl, fun _ => rfl, fun _ => id⟩

theorem SameBundles.trans {p q r : Part} (h : SameBundles p q) (k : SameBundles q r) : SameBundles p r :=
  ⟨fun o => (k.books o).trans (h.books o), fun b => (k.owner b).trans (h.owner b), fun b => h.idle b ∘ k.idle b⟩

theorem SameRecords.refl (p : Part) : SameRecords p p := ⟨fun _ => ⟨rfl, rfl, rfl⟩, rfl, fun _ => rfl⟩

theorem SameRecords.trans {p q r : Part} (h : SameRecords p q) (k : SameRecords q r) : SameRecords p r := by
  refine ⟨fun i => ?_, k.free.trans h.free, fun c => (k.refs c).trans (h.refs c)⟩
  obtain ⟨h1, h2, h3⟩ := h.slot i
  obtain ⟨k1, k2, k3⟩ := k.slot i
  exact ⟨k1.trans h1, k2.trans h2, k3.trans h3⟩

theorem Kept.refl (p : Part) : Kept p p := ⟨.refl p, .refl p⟩
theorem Kept.trans {p q r : Part} (h : Kept p q) (k : Kept q r) : Kept p r :=
  ⟨h.records.trans k.records, h.bundles.trans k.bundles⟩

theorem Lawful.refl (p : Part) : Lawful p p := ⟨id, .refl p⟩
theorem Lawful.trans {p q r : Part} (h : Lawful p q) (k : Lawful q r) : Lawful p r :=
  ⟨k.store ∘ h.store, h.bundles.trans k.bundles⟩

theorem KeepsLaws.refl (p : Part) : KeepsLaws p p := ⟨id, id⟩
theorem KeepsLaws.trans {p q r : Part} (h : KeepsLaws p q) (k : KeepsLaws q r) : KeepsLaws p r :=
  ⟨k.store ∘ h.store, k.order ∘ h.order⟩

theorem SameRecords.storeLaws {p q : Part} (h : SameRecords p q) (w : StoreLaws p) : StoreLaws q := by
  have gen i : (q.slot i).gen = (p.slot i).gen := (h.slot i).1
  have contents i : (q.slot i).contents = (p.slot i).contents := (h.slot i).2.1
  have shadow i : (q.slot i).shadow = (p.slot i).shadow := (h.slot i).2.2
  have bound (c : CtxNo) i : boundTo c (q.slot i) = boundTo c (p.slot i) := by simp only [boundTo, contents]
  constructor <;> simp only [gen, contents, shadow, bound, h.free, h.refs]
  exacts [w.shadows, w.tags, w.freeOnce, w.freeSlots, w.total, w.references]

theorem holdsOrder_iff (o : OrderNo) (b : Bay) : holdsOrder o b = (b.owner == some o) := by
  unfold holdsOrder Bay.owner
  cases b.bundle <;> simp

theorem baysOf_congr {p q : Part} (h : ∀ b, (q.bay b).owner = (p.bay b).owner) (o : OrderNo) : baysOf o q = baysOf o p := by
  simp only [baysOf, holdsOrder_iff, h]

/-- An order in the same place, with the same books. -/
theorem SameBundles.order_some {p q : Part} (h : SameBundles p q) {o : OrderNo} {r : Order} (k : q.order o = some r) :
    ∃ r', p.order o = some r' ∧ r'.state = r.state ∧ r'.ordered = r.ordered ∧ r'.opened = r.opened ∧ r'.retired = r.retired := by
  have e := h.books o
  rw [k] at e
  cases hp : p.order o with
  | none => rw [hp] at e; cases e
  | some r' =>
    rw [hp] at e
    simp only [Option.map_some, Order.books, Option.some.injEq, Prod.mk.injEq] at e
    obtain ⟨e1, e2, e3, e4⟩ := e
    exact ⟨r', rfl, e1.symm, e2.symm, e3.symm, e4.symm⟩

theorem SameBundles.order_none {p q : Part} (h : SameBundles p q) {o : OrderNo} (k : q.order o = none) : p.order o = none := by
  have e := h.books o
  rw [k] at e
  exact Option.map_eq_none_iff.mp e.symm

theorem SameBundles.orderLaws {p q : Part} (h : SameBundles p q) (w : OrderLaws p) : OrderLaws q where
  counts o r k := by
    obtain ⟨r', k', -, e2, e3, e4⟩ := h.order_some k
    rw [baysOf_congr h.owner, ← e2, ← e3, ← e4]
    exact w.counts o r' k'
  emptySlots o k := by
    rw [baysOf_congr h.owner]
    exact w.emptySlots o (h.order_none k)
  idle b k := by
    have e := h.owner b
    rw [Bay.owner, Bay.owner, w.idle b (h.idle b k)] at e
    exact Option.map_eq_none_iff.mp e
  cancelled o r k c := by
    obtain ⟨r', k', e1, -⟩ := h.order_some k
    rw [baysOf_congr h.owner]
    exact w.cancelled o r' k' (e1.trans c)
  complete o r k c := by
    obtain ⟨r', k', e1, e2, -, e4⟩ := h.order_some k
    rw [← e2, ← e4]
    exact w.complete o r' k' (e1.trans c)

theorem Kept.lawful {p q : Part} (h : Kept p q) : Lawful p q := ⟨h.records.storeLaws, h.bundles⟩
theorem Lawful.keepsLaws {p q : Part} (h : Lawful p q) : KeepsLaws p q := ⟨h.store, h.bundles.orderLaws⟩
theorem Kept.keepsLaws {p q : Part} (h : Kept p q) : KeepsLaws p q := h.lawful.keepsLaws

/-- The same store and contexts, whatever the other blocks. -/
theorem SameRecords.of_blocks {p q : Part} (h : q.rst = p.rst) (k : q.cpl.contexts = p.cpl.contexts) : SameRecords p q :=
  ⟨fun i => by rw [slot_congr h i]; exact ⟨rfl, rfl, rfl⟩, by rw [h], fun c => by simp only [Part.ctx, k]⟩

theorem SameBundles.of_blocks {p q : Part} (h : q.ort = p.ort) (k : q.bas = p.bas) : SameBundles p q := by
  refine ⟨fun o => ?_, fun b => ?_, fun b => ?_⟩
  · simp only [Part.order, h]
  · simp only [Part.bay, k]
  · simp only [Part.bay, k, imp_self]

/-- A change of the tracker, the actions, the links, or of the planner but for its contexts. -/
theorem Kept.of_blocks {p q : Part} (rst : q.rst = p.rst) (contexts : q.cpl.contexts = p.cpl.contexts) (ort : q.ort = p.ort)
    (bas : q.bas = p.bas) : Kept p q := ⟨.of_blocks rst contexts, .of_blocks ort bas⟩

/-- A change of those blocks first, then another operation. -/
theorem Kept.after_blocks {p q r : Part} (k : Kept q r) (rst : q.rst = p.rst) (contexts : q.cpl.contexts = p.cpl.contexts)
    (ort : q.ort = p.ort) (bas : q.bas = p.bas) : Kept p r := (Kept.of_blocks rst contexts ort bas).trans k

theorem After.kept {p q : Part} (h : After p q) : Kept p q := by
  obtain ⟨x, d, a, b, c, e⟩ := h.shape
  exact .of_blocks (by rw [e]) (by rw [e]) (by rw [e]) (by rw [e])

theorem Kept.foldl {α : Type} {f : Part → α → Part} (step : ∀ p a, Kept p (f p a)) (as : List α) (p : Part) : Kept p (as.foldl f p) :=
  foldl_within Kept.refl Kept.trans step as p

theorem Lawful.foldl {α : Type} {f : Part → α → Part} (step : ∀ p a, Lawful p (f p a)) (as : List α) (p : Part) :
    Lawful p (as.foldl f p) := foldl_within Lawful.refl Lawful.trans step as p

/-- A fold that carries a flag beside the part. -/
theorem Lawful.foldl_snd {α β : Type} {f : β × Part → α → β × Part} (step : ∀ acc a, Lawful acc.2 (f acc a).2) (as : List α)
    (acc : β × Part) : Lawful acc.2 (as.foldl f acc).2 :=
  foldl_within (R := fun x y : β × Part => Lawful x.2 y.2) (fun _ => .refl _) Lawful.trans step as acc

/-! The Zone Tracker's shared operations. -/

theorem arm_kept (e : Event) (t : Nat) (p : Part) : Kept p (arm e t p) := by
  obtain ⟨_, _, h⟩ := arm_shape e t p
  rw [h]
  exact .of_blocks rfl rfl rfl rfl

theorem cancel_kept (e : Event) (p : Part) : Kept p (cancel e p) := .of_blocks rfl rfl rfl rfl

theorem setZone_kept (z : Zone) (r : ZoneRec) (p : Part) : Kept p (p.setZone z r) :=
  .of_blocks (by simp) (by simp) (by simp) (by simp)

theorem setQueue_kept (z : Zone) (q : List Entry) (p : Part) : Kept p (p.setQueue z q) := setZone_kept z _ p

theorem takeCompares_kept (z : Zone) (n : Nat) (p : Part) : Kept p (takeCompares z n p) := .of_blocks rfl rfl rfl rfl

theorem setCounter_kept (z : Zone) (n : Nat) (p : Part) : Kept p (setCounter z n p) := setZone_kept z _ p

theorem armHead_kept (z : Zone) (p : Part) : Kept p (armHead z p) := by
  unfold armHead
  split
  · exact .refl p
  · exact arm_kept _ _ p

theorem joinTail_kept (z : Zone) (e : Entry) (p : Part) : Kept p (joinTail z e p) := by
  unfold joinTail
  split
  · exact (setQueue_kept z _ p).trans (armHead_kept z _)
  · exact setQueue_kept z _ p

theorem entryGone_kept (z : Zone) (e : Entry) (p : Part) : Kept p (entryGone z e p) := by
  unfold entryGone
  split
  · exact .refl p
  · exact .refl p
  · exact .refl p
  · exact cancel_kept _ p
  · split
    · exact .refl p
    · exact cancel_kept _ p

theorem popHead_kept (z : Zone) (p : Part) : Kept p (popHead z p) := by
  unfold popHead
  split
  · exact .refl p
  · exact (((setQueue_kept z _ p).trans (entryGone_kept z _ _)).trans (cancel_kept _ _)).trans (armHead_kept z _)

theorem removeTag_kept (z : Zone) (t : Nat) (p : Part) : Kept p (removeTag z t p) := by
  unfold removeTag
  split
  · exact .refl p
  · split
    · exact popHead_kept z p
    · split
      · exact .refl p
      · exact (setQueue_kept z _ p).trans (entryGone_kept z _ _)

theorem leaveCutList_kept (t : Nat) (p : Part) : Kept p (leaveCutList t p) := .of_blocks rfl rfl rfl rfl
theorem leavePlanner_kept (t : Nat) (p : Part) : Kept p (leavePlanner t p) := .of_blocks rfl rfl rfl rfl
theorem countStray_kept (p : Part) : Kept p (countStray p) := .of_blocks rfl rfl rfl rfl
theorem countUntracked_kept (p : Part) : Kept p (countUntracked p) := .of_blocks rfl rfl rfl rfl

/-! The Action Unit's shared operations. -/

theorem startFlap_kept (e : WasteEntry) (c : Coil) (p : Part) : Kept p (startFlap e c p) := by
  cases c <;> exact .of_blocks rfl rfl rfl rfl

theorem serveFlap_kept (p : Part) : Kept p (serveFlap p) := by
  unfold serveFlap
  split
  · exact .refl p
  · split
    · exact .refl p
    · split
      · exact .refl p
      · split
        · exact .refl p
        · exact startFlap_kept _ _ p

theorem endFlapPulse_kept (p : Part) : Kept p (endFlapPulse p) := by
  unfold endFlapPulse
  split
  · exact .refl p
  · exact (serveFlap_kept _).after_blocks rfl rfl rfl rfl

theorem endDeadTime_kept (p : Part) : Kept p (endDeadTime p) := by
  unfold endDeadTime
  split
  · exact (serveFlap_kept _).after_blocks rfl rfl rfl rfl
  · exact .refl p

theorem cancelEntry_kept (e : WasteEntry) (p : Part) : Kept p (cancelEntry e p) := by
  unfold cancelEntry
  dsimp only
  split
  · exact cancel_kept _ p
  · exact (cancel_kept _ p).trans (cancel_kept _ _)

theorem armEntry_kept (e : WasteEntry) (p : Part) : Kept p (armEntry e p) := by
  have opening : Kept p (if openAhead e.state then arm (.wasteOpen e.openT) e.openT p else p) := by
    split
    · exact arm_kept _ _ p
    · exact .refl p
  unfold armEntry
  dsimp only
  split
  · exact opening
  · split
    · exact opening
    · exact opening.trans (arm_kept _ _ _)

theorem placeEntry_kept (e : WasteEntry) (gone rest : List WasteEntry) (p : Part) : Kept p (placeEntry e gone rest p) := by
  have cancelled : Kept p (gone.foldl (fun q x => cancelEntry x q) p) := .foldl (fun q x => cancelEntry_kept x q) gone p
  unfold placeEntry
  generalize gone.foldl (fun q x => cancelEntry x q) p = q at cancelled
  dsimp only
  split
  · exact cancelled.trans (((armEntry_kept e _).trans (serveFlap_kept _)).after_blocks rfl rfl rfl rfl)
  · exact cancelled.trans ((armEntry_kept e _).after_blocks rfl rfl rfl rfl)

theorem enterWaste_kept (o : Nat) (t : Option Nat) (p : Part) : Kept p (enterWaste o t p) := by
  unfold enterWaste
  dsimp only
  split
  · split
    · exact .refl p
    · exact placeEntry_kept _ _ _ p
  · exact placeEntry_kept _ _ _ p

theorem wasteWhole_kept (lead : Nat) (n : Option Nat) (p : Part) : Kept p (wasteWhole lead n p) := enterWaste_kept _ _ p

theorem takeOpenTarget_kept (t : Nat) (p : Part) : Kept p (takeOpenTarget t p) :=
  (serveFlap_kept _).after_blocks rfl rfl rfl rfl

theorem takeShutTarget_kept (t : Nat) (p : Part) : Kept p (takeShutTarget t p) :=
  (serveFlap_kept _).after_blocks rfl rfl rfl rfl

theorem closeOpenEnded_kept (t : Nat) (p : Part) : Kept p (closeOpenEnded t p) := by
  unfold closeOpenEnded
  split
  · exact .refl p
  · exact (arm_kept _ _ _).after_blocks rfl rfl rfl rfl

theorem setKickQueue_kept (b : BayNo) (q : List KickEntry) (p : Part) : Kept p (p.setKickQueue b q) := .of_blocks rfl rfl rfl rfl

theorem insertKick_kept (b : BayNo) (t tag : Nat) (p : Part) : Kept p (insertKick b t tag p) :=
  (setKickQueue_kept b _ p).trans (arm_kept _ _ _)

theorem removeKick_kept (b : BayNo) (tag : Nat) (p : Part) : Kept p (removeKick b tag p) :=
  (setKickQueue_kept b _ p).trans (cancel_kept _ _)

theorem cancelSaw_kept (tag : Nat) (p : Part) : Kept p (cancelSaw tag p) :=
  (Kept.foldl (fun q (x : SawEntry) => cancel_kept (.saw x.target) q) _ p).trans (.of_blocks rfl rfl rfl rfl)

theorem appendSaw_kept (ts : List Nat) (tag : Nat) (p : Part) : Kept p (appendSaw ts tag p) :=
  Kept.foldl (f := fun q t => arm (.saw t) t { q with acu.saw := q.acu.saw ++ [⟨t, tag⟩] })
    (fun _ t => (arm_kept (.saw t) t _).after_blocks rfl rfl rfl rfl) ts p

/-! Notices and counts. -/

theorem raise_kept (n : Notice) (p : Part) : Kept p (raise n p) := (raise_after n p).kept
theorem compose_kept (n : Notice) (p : Part) : Kept p (compose n p) := (compose_after n p).kept
theorem reevaluate_kept (b : Bool) (p : Part) : Kept p (reevaluate b p) := (reevaluate_after b p).kept

theorem setFault_kept (f : FaultCause) (p : Part) : Kept p (setFault f p) := by
  unfold setFault
  split
  · exact .refl p
  · exact (reevaluate_kept _ _).after_blocks rfl rfl rfl rfl

theorem cntntc_after (a b c : Nat) (p : Part) : After p (cntntc a b c p) := compose_after _ p

theorem countEvent_kept (k : Countable) (p : Part) : Kept p (countEvent k p) := by
  unfold countEvent
  dsimp only
  split
  · split
    · exact (cntntc_after _ _ _ p).kept
    · exact .of_blocks rfl rfl rfl rfl
  · exact .of_blocks rfl rfl rfl rfl

theorem reportCounts_kept (p : Part) : Kept p (reportCounts p) := by
  unfold reportCounts
  split
  · exact .refl p
  · exact (cntntc_after _ _ _ _).kept.after_blocks rfl rfl rfl rfl

/-! Areas of orders and bundles, and the states of bays that hold a bundle. -/

theorem SameBundles.of_order {p q : Part} (bas : q.bas = p.bas)
    (books : ∀ o, (q.order o).map Order.books = (p.order o).map Order.books) : SameBundles p q :=
  ⟨books, fun b => by simp only [Part.bay, bas], fun b => by simp only [Part.bay, bas, imp_self]⟩

theorem order_changeOrder (o : OrderNo) (f : Order → Order) (p : Part) (o' : OrderNo) :
    (changeOrder o f p).order o' = if o = o' then (p.order o).map f else p.order o' := by
  unfold changeOrder
  split
  · next h => subst h; simp
  · next h => exact Part.order_setOrder_other _ _ _ _ h

/-- An order changed in fields that the laws do not speak of. -/
theorem changeOrder_kept (o : OrderNo) {f : Order → Order} (h : ∀ r, (f r).books = r.books) (p : Part) : Kept p (changeOrder o f p) := by
  refine ⟨.of_blocks rfl rfl, .of_order rfl fun o' => ?_⟩
  rw [order_changeOrder]
  split
  · next e => subst e; rw [Option.map_map]; congr 1; exact funext h
  · rfl

theorem bay_setBay (b : BayNo) (x : Bay) (p : Part) (b' : BayNo) : (p.setBay b x).bay b' = if b = b' then x else p.bay b' := by
  split
  · next h => subst h; simp
  · next h => exact Part.bay_setBay_other _ _ _ _ h

/-- A bay changed with its bundle's order kept, and not made IDLE. -/
theorem setBay_kept (b : BayNo) {x : Bay} {p : Part} (owner : x.owner = (p.bay b).owner)
    (idle : x.state = .idle → (p.bay b).state = .idle) : Kept p (p.setBay b x) := by
  refine ⟨.of_blocks rfl rfl, fun _ => rfl, fun b' => ?_, fun b' => ?_⟩ <;> rw [bay_setBay] <;> split
  · next h => subst h; exact owner
  · rfl
  · next h => subst h; exact idle
  · exact id

theorem changeBundle_kept (b : BayNo) {f : Bundle → Bundle} (h : ∀ u, (f u).slot = u.slot) (p : Part) :
    Kept p (changeBundle b f p) := by
  refine setBay_kept b ?_ id
  simp only [Bay.owner, Option.map_map]
  congr 1
  exact funext h

theorem lowerReserved_kept (o : OrderNo) (n : Nat) (p : Part) : Kept p (lowerReserved o n p) := changeOrder_kept o (fun _ => by rfl) p

theorem enterFull_kept (b : BayNo) (p : Part) : Kept p (enterFull b p) := by
  unfold enterFull
  split
  · exact .refl p
  · next x hx =>
    split
    · exact .refl p
    · refine Kept.trans (setBay_kept b ?_ ?_) (((raise_kept _ _).trans (raise_kept _ _)).trans (countEvent_kept _ _))
      · simp [Bay.owner, hx]
      · exact fun h => by cases h

theorem reevalClosing_kept (b : BayNo) (p : Part) : Kept p (reevalClosing b p) := by
  unfold reevalClosing
  split
  · split
    · exact .refl p
    · split
      · exact .refl p
      · split
        · exact .refl p
        · exact setBay_kept b rfl fun h => by cases h
        · exact enterFull_kept b p
  · exact .refl p

theorem undoTransit_kept (b : BayNo) (area len : Nat) (p : Part) : Kept p (undoTransit b area len p) := by
  unfold undoTransit
  split
  · exact .refl p
  · dsimp only
    exact ((changeBundle_kept b (fun _ => by rfl) p).trans (changeOrder_kept _ (fun _ => by rfl) _)).trans (reevalClosing_kept b _)

theorem landArea_kept (b : BayNo) (area len : Nat) (p : Part) : Kept p (landArea b area len p) := by
  unfold landArea
  split
  · exact .refl p
  · dsimp only
    exact (changeBundle_kept b (fun _ => by rfl) p).trans (changeOrder_kept _ (fun _ => by rfl) _)

theorem addTransit_kept (b : BayNo) (area len : Nat) (p : Part) : Kept p (addTransit b area len p) := by
  unfold addTransit
  split
  · exact .refl p
  · dsimp only
    exact (changeBundle_kept b (fun _ => by rfl) p).trans (changeOrder_kept _ (fun _ => by rfl) _)

theorem forceClose_kept (b : BayNo) (p : Part) : Kept p (forceClose b p) := by
  unfold forceClose
  split
  · exact .refl p
  · next x hx =>
    have closing : Kept p (p.setBay b { p.bay b with state := .closing, bundle := some { x with short := true } }) :=
      setBay_kept b (by simp [Bay.owner, hx]) fun h => by cases h
    dsimp only
    split
    · exact closing.trans (reevalClosing_kept b _)
    · exact closing

theorem closeAtTarget_kept (b : BayNo) (p : Part) : Kept p (closeAtTarget b p) := by
  unfold closeAtTarget
  split
  · exact .refl p
  · split
    · exact .refl p
    · split
      · exact setBay_kept b rfl fun h => by cases h
      · exact .refl p

theorem closeAfterLanding_kept (b : BayNo) (p : Part) : Kept p (closeAfterLanding b p) := by
  unfold closeAfterLanding
  split
  · exact .refl p
  · split
    · exact reevalClosing_kept b p
    · exact .refl p

theorem flagInspect_kept (x : Piece) (p : Part) : Kept p (flagInspect x p) := by
  unfold flagInspect
  split
  · exact .refl p
  · exact changeBundle_kept _ (fun _ => by rfl) p

theorem cancelKick_kept (x : Piece) (p : Part) : Kept p (cancelKick x p) := by
  unfold cancelKick
  split
  · exact .refl p
  · exact (removeKick_kept _ _ p).trans (undoTransit_kept _ _ _ _)

/-! LINE CLEAR in every block but the Record Store. -/

theorem clearTracker_kept (p : Part) : Kept p (clearTracker p) := .of_blocks rfl rfl rfl rfl
theorem clearActions_kept (p : Part) : Kept p (clearActions p) := .of_blocks rfl rfl rfl rfl
theorem clearPlanner_kept (p : Part) : Kept p (clearPlanner p) := .of_blocks rfl rfl rfl rfl
theorem startClear_kept (a : Bool) (r : Option Nat) (p : Part) : Kept p (startClear a r p) := .of_blocks rfl rfl rfl rfl
theorem makeAutomatic_kept (p : Part) : Kept p (makeAutomatic p) := .of_blocks rfl rfl rfl rfl

theorem clearOrders_kept (p : Part) : Kept p (clearOrders p) := by
  refine ⟨.of_blocks rfl rfl, .of_order rfl fun o => ?_⟩
  simp only [clearOrders, Part.order, Fin.getElem_fin, Vector.getElem_map, Option.map_map]
  rfl

theorem clearBays_kept (p : Part) : Kept p (clearBays p) := by
  have emptied : Kept p { p with
      bas := p.bas.map fun b => { b with bundle := b.bundle.map fun x => { x with transit := 0, shortTransit := 0 } }
      lif.deferred := some [] } := by
    refine ⟨.of_blocks rfl rfl, fun _ => rfl, fun b => ?_, fun b => ?_⟩
    · simp only [Part.bay, Fin.getElem_fin, Vector.getElem_map, Bay.owner, Option.map_map]
      rfl
    · simp only [Part.bay, Fin.getElem_fin, Vector.getElem_map, imp_self]
  have closed := emptied.trans (Kept.foldl (fun q b => reevalClosing_kept b q) (List.finRange 8) _)
  unfold clearBays
  dsimp only
  generalize (List.finRange 8).foldl (fun q b => reevalClosing b q) _ = r at closed ⊢
  exact closed.trans (.of_blocks rfl rfl rfl rfl)

/-! Captures. -/

theorem takeCapture_kept (k : CaptureKind) (i : SlotNo) (t : Nat) (r : Reader) (p : Part) : Kept p (takeCapture k i t r p) := by
  unfold takeCapture
  split <;> exact ⟨⟨fun _ => ⟨rfl, rfl, rfl⟩, rfl, fun _ => rfl⟩, .of_blocks rfl rfl⟩

theorem noteDamage_kept (k : CaptureKind) (i : SlotNo) (r : Reader) (p : Part) : Kept p (noteDamage k i r p) := by
  have captured := takeCapture_kept k i (tagOf (p.slot i).shadow.gen i) r p
  unfold noteDamage
  dsimp only
  generalize takeCapture k i (tagOf (p.slot i).shadow.gen i) r p = q at captured
  have counted : Kept q { q with rst.damaged := bump q.rst.damaged } :=
    ⟨⟨fun _ => ⟨rfl, rfl, rfl⟩, rfl, fun _ => rfl⟩, .of_blocks rfl rfl⟩
  exact (captured.trans counted).trans (compose_kept _ _)

end Sys2Proof.Machine

/-! PROOFS. The laws of records and bundles: the Record Store's own operations, the reads, condemnation and LINE CLEAR. -/

namespace Sys2Proof.Machine

open Sys2Proof

/-! Counting the places of a finite range that pass a test. -/

/-- A test that fails at one more place than another passes one place fewer. -/
theorem length_filter_finRange {n : Nat} {P Q : Fin n → Bool} (i : Fin n) (hP : P i = true) (hQ : Q i = false)
    (h : ∀ j, j ≠ i → Q j = P j) : ((List.finRange n).filter P).length = ((List.finRange n).filter Q).length + 1 := by
  have mem : i ∈ (List.finRange n).filter P := by simp [hP]
  have erased : (List.finRange n).filter Q = ((List.finRange n).filter P).erase i := by
    rw [((List.nodup_finRange n).filter _).erase_eq_filter, List.filter_filter]
    refine List.filter_congr fun j _ => ?_
    by_cases e : j = i
    · subst e; simp [hQ]
    · simp [h j e, e]
  rw [erased, List.length_erase_of_mem mem]
  have := List.length_pos_of_mem mem
  omega

theorem length_filter_finRange_congr {n : Nat} {P Q : Fin n → Bool} (h : ∀ j, Q j = P j) :
    ((List.finRange n).filter Q).length = ((List.finRange n).filter P).length := by
  rw [List.filter_congr fun j _ => h j]

/-! Slots and contexts after an update. -/

theorem slot_setSlot (i : SlotNo) (x : Slot) (p : Part) (j : SlotNo) : (p.setSlot i x).slot j = if i = j then x else p.slot j := by
  split
  · next h => subst h; simp
  · next h => exact Part.slot_setSlot_other _ _ _ _ h

theorem ctx_changeRefs (f : Nat → Nat) (c : CtxNo) (p : Part) (d : CtxNo) :
    ((changeRefs f c p).ctx d).refs = if c = d then f (p.ctx d).refs else (p.ctx d).refs := by
  unfold changeRefs
  split
  · next h => subst h; simp
  · next h => rw [Part.ctx_setCtx_other _ _ _ _ h]

theorem slotOf_tagOf (g : Nat) (i : SlotNo) : slotOf (tagOf g i) = i := by
  apply Fin.ext
  simp only [slotOf, tagOf, Fin.ofNat]
  omega

theorem genOf_tagOf (g : Nat) (i : SlotNo) : genOf (tagOf g i) = g := by
  simp only [genOf, tagOf]
  omega

/-- The slots in ascending order, each with its place, as the searches of the store go through them. -/
theorem zipIdx_slots (p : Part) : p.rst.slots.toList.zipIdx = (List.finRange 1024).map fun i => (p.slot i, i.val) := by
  refine List.ext_getElem (by simp) fun n h _ => ?_
  simp [Part.slot]

theorem ofNat_val (i : SlotNo) : (Fin.ofNat 1024 i.val : SlotNo) = i := Fin.ext (Nat.mod_eq_of_lt i.isLt)

theorem liveSlots_eq (p : Part) :
    liveSlots p = (List.finRange 1024).filter fun i =>
      if finding (p.slot i) = .double then !p.rst.free.contains i else shadowView (p.slot i) != .nothing := by
  simp only [liveSlots, zipIdx_slots, List.filter_map, List.map_map]
  rw [show (fun x : Slot × Nat => (Fin.ofNat 1024 x.2 : SlotNo)) ∘ (fun i : SlotNo => (p.slot i, i.val)) = id from
    funext ofNat_val, List.map_id]
  refine List.filter_congr fun i _ => ?_
  simp only [Function.comp, ofNat_val]

/-! What the laws say of a slot, whatever its error marks. -/

/-- The context a slot's record is bound to, none when it is free. -/
def Slot.ctx? (x : Slot) : Option CtxNo := shadowCtx (shadowOf x.contents)

theorem Slot.ctx?_eq_none_iff (x : Slot) : x.ctx? = none ↔ x.contents = .nothing := by
  unfold Slot.ctx?
  cases x.contents <;> simp [shadowOf, shadowCtx]

theorem boundTo_iff (c : CtxNo) (x : Slot) : boundTo c x = (x.ctx? == some c) := rfl

theorem StoreLaws.shadowView_eq {p : Part} (w : StoreLaws p) (i : SlotNo) :
    shadowView (p.slot i) = shadowOf (p.slot i).contents := by
  unfold shadowView
  split
  · rfl
  · rw [w.shadows i]

theorem StoreLaws.genView_eq {p : Part} (w : StoreLaws p) (i : SlotNo) : genView (p.slot i) = (p.slot i).gen := by
  unfold genView
  split
  · rw [w.shadows i]
  · rfl

theorem shadowOf_eq_nothing_iff (c : Contents) : shadowOf c = .nothing ↔ c = .nothing := by
  cases c <;> simp [shadowOf]

/-- A tag names a live record that is bound to a context. -/
def Binds (t : Nat) (c : CtxNo) (p : Part) : Prop := (p.slot (slotOf t)).gen = genOf t ∧ (p.slot (slotOf t)).ctx? = some c

theorem SameRecords.binds {p q : Part} (h : SameRecords p q) {t : Nat} {c : CtxNo} (b : Binds t c p) : Binds t c q := by
  obtain ⟨gen, contents, -⟩ := h.slot (slotOf t)
  exact ⟨gen.trans b.1, by rw [Slot.ctx?, contents]; exact b.2⟩

theorem Kept.binds {p q : Part} (h : Kept p q) {t : Nat} {c : CtxNo} (b : Binds t c p) : Binds t c q := h.records.binds b

/-! A live record rewritten (R7, R13). -/

/-- A slot's record replaced by one of the same context that carries the slot's tag. -/
theorem StoreLaws.of_writeRecord {p : Part} (w : StoreLaws p) {i : SlotNo} {c : Contents} {d : CtxNo} (old : (p.slot i).ctx? = some d)
    (new : shadowCtx (shadowOf c) = some d) (tag : recordTag c = some (tagOf (p.slot i).gen i)) : StoreLaws (writeRecord i c p) := by
  have live : (p.slot i).contents ≠ .nothing := fun h => by rw [(Slot.ctx?_eq_none_iff _).2 h] at old; cases old
  have fresh : c ≠ .nothing := fun h => by rw [h] at new; cases new
  have slot j : (writeRecord i c p).slot j = if i = j then rewritten (p.slot i).gen c else p.slot j := slot_setSlot i _ p j
  have liveness j : ((writeRecord i c p).slot j).contents = .nothing ↔ (p.slot j).contents = .nothing := by
    rw [slot]; split
    · next h => subst h; simp [rewritten, live, fresh]
    · rfl
  have bound (x : CtxNo) j : boundTo x ((writeRecord i c p).slot j) = boundTo x (p.slot j) := by
    rw [slot]; split
    · next h => subst h; simp only [boundTo_iff, old]; simp only [Slot.ctx?, rewritten, new]
    · rfl
  constructor
  case shadows =>
    intro j; rw [slot]; split
    · rfl
    · exact w.shadows j
  case tags =>
    intro j t h
    rw [slot] at h ⊢
    split at h
    · next e => subst e; rw [if_pos rfl]; exact Option.some.inj (h.symm.trans tag)
    · next e => rw [if_neg e]; exact w.tags j t h
  case freeOnce => exact w.freeOnce
  case freeSlots => intro j; rw [liveness]; exact w.freeSlots j
  case total =>
    rw [length_filter_finRange_congr fun j => ?_]
    · exact w.total
    · rw [Bool.eq_iff_iff]; simp only [bne_iff_ne, ne_eq, liveness]
  case references =>
    intro x
    rw [length_filter_finRange_congr (bound x)]
    exact w.references x

theorem writeRecord_bundles (i : SlotNo) (c : Contents) (p : Part) : SameBundles p (writeRecord i c p) := .of_blocks rfl rfl

theorem writeStrip_lawful {s : Strip} {p : Part} (h : StoreLaws p → Binds s.tag s.ctx p) : Lawful p (writeStrip s p) :=
  ⟨fun w => w.of_writeRecord (h w).2 rfl (by rw [(h w).1, tagOf_slotOf]; rfl), writeRecord_bundles _ _ p⟩

theorem writePiece_lawful {x : Piece} {p : Part} (h : StoreLaws p → Binds x.tag x.ctx p) : Lawful p (writePiece x p) :=
  ⟨fun w => w.of_writeRecord (h w).2 rfl (by rw [(h w).1, tagOf_slotOf]; rfl), writeRecord_bundles _ _ p⟩

/-- A record rewritten names what it named before, and so does every other tag. -/
theorem Binds.of_writeRecord {p : Part} {t u : Nat} {c d : CtxNo} {x : Contents} (b : Binds t c p) (k : Binds u d p)
    (new : shadowCtx (shadowOf x) = some d) : Binds t c (writeRecord (slotOf u) x p) := by
  unfold Binds writeRecord
  rw [slot_setSlot]
  split
  · next e =>
    have same : d = c := Option.some.inj (k.2.symm.trans (e ▸ b.2))
    exact ⟨(by rw [e]; exact b.1), by rw [← same]; exact new⟩
  · exact b

theorem Binds.of_writePiece {p : Part} {t : Nat} {c : CtxNo} {x : Piece} (b : Binds t c p) (k : Binds x.tag x.ctx p) :
    Binds t c (writePiece x p) := b.of_writeRecord k rfl

/-! Retirement and allocation (R3, R5). -/

/-- A retirement of a free slot is not carried out (R5). -/
theorem retireSlot_free {i : SlotNo} {p : Part} (cause : Retire) (h : shadowCtx (shadowView (p.slot i)) = none) :
    retireSlot i cause p = p := by simp only [retireSlot, h]

theorem countRetire_shape (cause : Retire) (p : Part) :
    ∃ a b, countRetire cause p = { p with rst.stripRetired := a, rst.pieceRetired := b } := by
  cases cause <;> exact ⟨_, _, rfl⟩

theorem retireSlot_slot {i : SlotNo} {p : Part} {c : CtxNo} (cause : Retire) (h : shadowCtx (shadowView (p.slot i)) = some c)
    (j : SlotNo) : (retireSlot i cause p).slot j = if i = j then rewritten (genView (p.slot i)) .nothing else p.slot j := by
  rw [← slot_setSlot]
  simp only [retireSlot, h]
  obtain ⟨a, b, e⟩ := countRetire_shape cause (p.setSlot i (rewritten (genView (p.slot i)) .nothing))
  rw [e]
  rfl

theorem retireSlot_free_list {i : SlotNo} {p : Part} {c : CtxNo} (cause : Retire) (h : shadowCtx (shadowView (p.slot i)) = some c) :
    (retireSlot i cause p).rst.free = p.rst.free ++ [i] := by
  simp only [retireSlot, h]
  obtain ⟨a, b, e⟩ := countRetire_shape cause (p.setSlot i (rewritten (genView (p.slot i)) .nothing))
  rw [e]
  rfl

theorem retireSlot_refs {i : SlotNo} {p : Part} {c : CtxNo} (cause : Retire) (h : shadowCtx (shadowView (p.slot i)) = some c)
    (d : CtxNo) : ((retireSlot i cause p).ctx d).refs = if c = d then (p.ctx d).refs - 1 else (p.ctx d).refs := by
  simp only [retireSlot, h]
  obtain ⟨a, b, e⟩ := countRetire_shape cause (p.setSlot i (rewritten (genView (p.slot i)) .nothing))
  rw [e]
  exact ctx_changeRefs (· - 1) c _ d

theorem retireSlot_bundles (i : SlotNo) (cause : Retire) (p : Part) : SameBundles p (retireSlot i cause p) := by
  cases h : shadowCtx (shadowView (p.slot i)) with
  | none => rw [retireSlot_free cause h]; exact .refl p
  | some c =>
    simp only [retireSlot, h]
    obtain ⟨a, b, e⟩ := countRetire_shape cause (p.setSlot i (rewritten (genView (p.slot i)) .nothing))
    rw [e]
    exact .of_blocks rfl rfl

theorem StoreLaws.of_retireSlot {p : Part} (w : StoreLaws p) (i : SlotNo) (cause : Retire) : StoreLaws (retireSlot i cause p) := by
  cases h : shadowCtx (shadowView (p.slot i)) with
  | none => rw [retireSlot_free cause h]; exact w
  | some c =>
    have slot := retireSlot_slot cause h
    have free := retireSlot_free_list cause h
    have refs := retireSlot_refs cause h
    have old : (p.slot i).ctx? = some c := by rw [Slot.ctx?, ← w.shadowView_eq]; exact h
    have live : (p.slot i).contents ≠ .nothing := fun e => by rw [(Slot.ctx?_eq_none_iff _).2 e] at old; cases old
    generalize retireSlot i cause p = q at slot free refs
    have other j (e : j ≠ i) : q.slot j = p.slot j := by rw [slot, if_neg (Ne.symm e)]
    have own : (q.slot i).contents = .nothing := by rw [slot, if_pos rfl]; rfl
    constructor
    case shadows =>
      intro j; rw [slot]; split
      · rfl
      · exact w.shadows j
    case tags =>
      intro j t k
      by_cases e : j = i
      · subst e; rw [own] at k; cases k
      · rw [other j e] at k ⊢; exact w.tags j t k
    case freeOnce =>
      rw [free, List.nodup_append]
      refine ⟨w.freeOnce, List.nodup_singleton i, fun a ha b hb e => ?_⟩
      rw [List.mem_singleton] at hb
      subst e; subst hb
      exact live ((w.freeSlots _).1 ha)
    case freeSlots =>
      intro j
      by_cases e : j = i
      · subst e; simp [free, own]
      · simp only [free, List.mem_append, List.mem_singleton, e, or_false, other j e]; exact w.freeSlots j
    case total =>
      have count : ((List.finRange 1024).filter fun i => (p.slot i).contents != .nothing).length
          = ((List.finRange 1024).filter fun i => (q.slot i).contents != .nothing).length + 1 :=
        length_filter_finRange i (by simpa using live) (by simp [own]) (fun j e => by rw [other j e])
      have := w.total
      rw [free, List.length_append, List.length_singleton]
      omega
    case references =>
      intro d
      rw [refs, w.references d]
      split
      · next e =>
        subst e
        rw [length_filter_finRange (Q := fun j => boundTo c (q.slot j)) i (by simp [boundTo_iff, old])
          (by simp [boundTo_iff, Slot.ctx?, own, shadowOf, shadowCtx]) (fun j e => by rw [other j e])]
        simp
      · next e =>
        refine (length_filter_finRange_congr fun j => ?_).symm
        by_cases k : j = i
        · subst k
          rw [boundTo_iff, boundTo_iff, old, (Slot.ctx?_eq_none_iff _).2 own]
          simp [e]
        · rw [other j k]

theorem retireSlot_lawful (i : SlotNo) (cause : Retire) (p : Part) : Lawful p (retireSlot i cause p) :=
  ⟨fun w => w.of_retireSlot i cause, retireSlot_bundles i cause p⟩

theorem retire_lawful (i : SlotNo) (cause : Retire) (p : Part) : Lawful p (retire i cause p) :=
  (retireSlot_lawful i cause p).trans (retire_after i cause p).kept.lawful

/-- An allocation takes a free slot for a record bound to the context, under the tag it makes. -/
theorem StoreLaws.of_allocate {p q : Part} (w : StoreLaws p) {c : CtxNo} {mk : Nat → Contents} {t : Nat}
    (h : allocate c mk p = some (t, q)) (ctx : ∀ t, shadowCtx (shadowOf (mk t)) = some c) (tag : ∀ t, recordTag (mk t) = some t) :
    StoreLaws q ∧ Binds t c q ∧ ∀ u d, Binds u d p → Binds u d q := by
  cases hf : p.rst.free with
  | nil => simp only [allocate, hf] at h; cases h
  | cons i rest =>
    rw [allocate_cons c mk hf] at h
    simp only [Option.some.injEq, Prod.mk.injEq] at h
    obtain ⟨ht, hq⟩ := h
    have once : i ∉ rest ∧ rest.Nodup := by have := w.freeOnce; rwa [hf, List.nodup_cons] at this
    have empty : (p.slot i).contents = .nothing := (w.freeSlots i).1 (by rw [hf]; exact List.mem_cons_self)
    have fresh : mk t ≠ .nothing := fun e => by have := ctx t; rw [e] at this; cases this
    have slot j : q.slot j = if i = j then rewritten (nextGen (p.slot i).gen) (mk t) else p.slot j := by
      rw [← hq, ← ht]; exact slot_setSlot i _ { p with rst.free := rest } j
    have free : q.rst.free = rest := by rw [← hq]; rfl
    have refs d : (q.ctx d).refs = if c = d then (p.ctx d).refs + 1 else (p.ctx d).refs := by
      rw [← hq]; exact ctx_changeRefs (· + 1) c _ d
    have other j (e : j ≠ i) : q.slot j = p.slot j := by rw [slot, if_neg (Ne.symm e)]
    have own : q.slot i = rewritten (nextGen (p.slot i).gen) (mk t) := by rw [slot, if_pos rfl]
    have bound : (q.slot i).ctx? = some c := by rw [own]; exact ctx t
    have place : slotOf t = i ∧ genOf t = nextGen (p.slot i).gen := by rw [← ht]; exact ⟨slotOf_tagOf _ _, genOf_tagOf _ _⟩
    refine ⟨?_, ⟨by rw [place.1, own, place.2]; rfl, by rw [place.1]; exact bound⟩, fun u d b => ?_⟩
    · constructor
      case shadows =>
        intro j; rw [slot]; split
        · rfl
        · exact w.shadows j
      case tags =>
        intro j u k
        by_cases e : j = i
        · subst e
          rw [own] at k ⊢
          have : u = t := Option.some.inj (k.symm.trans (tag t))
          rw [this, ← ht]; rfl
        · rw [other j e] at k ⊢; exact w.tags j u k
      case freeOnce => rw [free]; exact once.2
      case freeSlots =>
        intro j
        by_cases e : j = i
        · subst e; simp [free, own, once.1, rewritten, fresh]
        · rw [free, other j e, ← w.freeSlots j, hf, List.mem_cons]; simp [e]
      case total =>
        have count : ((List.finRange 1024).filter fun i => (q.slot i).contents != .nothing).length
            = ((List.finRange 1024).filter fun i => (p.slot i).contents != .nothing).length + 1 :=
          length_filter_finRange i (by simp [own, rewritten, fresh]) (by simp [empty]) (fun j e => by rw [other j e])
        have := w.total
        rw [hf, List.length_cons] at this
        rw [free]
        omega
      case references =>
        intro d
        rw [refs, w.references d]
        have unbound : (p.slot i).ctx? = none := (Slot.ctx?_eq_none_iff _).2 empty
        split
        · next e =>
          subst e
          exact (length_filter_finRange (P := fun j => boundTo c (q.slot j)) (Q := fun j => boundTo c (p.slot j)) i
            (by simp [boundTo_iff, bound]) (by simp [boundTo_iff, unbound]) (fun j e => by rw [other j e])).symm
        · next e =>
          refine length_filter_finRange_congr fun j => ?_
          by_cases k : j = i
          · subst k; simp [boundTo_iff, bound, unbound, e]
          · rw [other j k]
    · have apart : slotOf u ≠ i := fun e => by
        have := b.2
        rw [e, (Slot.ctx?_eq_none_iff _).2 empty] at this
        cases this
      exact ⟨by rw [other _ apart]; exact b.1, by rw [other _ apart]; exact b.2⟩

theorem allocate_bundles {p q : Part} {c : CtxNo} {mk : Nat → Contents} {t : Nat} (h : allocate c mk p = some (t, q)) :
    SameBundles p q := by
  cases hf : p.rst.free with
  | nil => simp only [allocate, hf] at h; cases h
  | cons i rest =>
    rw [allocate_cons c mk hf] at h
    simp only [Option.some.injEq, Prod.mk.injEq] at h
    rw [← h.2]
    exact .of_blocks rfl rfl

/-! Reads that proceed (R15, R16, R21). -/

/-- A slot after the repairs of a read that proceeds (R15, R16). -/
def repaired (x : Slot) : Slot :=
  if x.check == .single || x.parityBad then
    { x with
      check := .good
      parityBad := false
      shadow := if x.parityBad then ⟨x.gen, shadowOf x.contents⟩ else x.shadow }
  else x

theorem setSlot_self (i : SlotNo) (p : Part) : p.setSlot i (p.slot i) = p := by
  simp [Part.setSlot, Part.slot]

/-- The repairs rewrite the slot, and touch beside it only the counters and the capture of the store. -/
theorem repair_shape (i : SlotNo) (r : Reader) (p : Part) : ∃ a b c d,
    repair i r p = { p.setSlot i (repaired (p.slot i)) with
      rst.corrected := a, rst.shadowed := b, rst.capture := c, rst.overrun := d } := by
  unfold repair takeCapture
  cases hs : (p.slot i).check == .single <;> cases hb : (p.slot i).parityBad <;>
    simp only [repaired, hs, hb, Bool.not_true, Bool.not_false, Bool.and_true, Bool.and_false, Bool.and_self, Bool.true_and,
      Bool.false_and, Bool.or_self, Bool.or_true, Bool.or_false, if_true, if_false, Bool.false_eq_true, setSlot_self]
  · exact ⟨_, _, _, _, rfl⟩
  all_goals split
  all_goals try split
  all_goals exact ⟨_, _, _, _, rfl⟩

theorem repaired_same {p : Part} (w : StoreLaws p) (i : SlotNo) : (repaired (p.slot i)).gen = (p.slot i).gen
    ∧ (repaired (p.slot i)).contents = (p.slot i).contents ∧ (repaired (p.slot i)).shadow = (p.slot i).shadow := by
  unfold repaired
  split
  · refine ⟨rfl, rfl, ?_⟩
    dsimp only
    split
    · exact (w.shadows i).symm
    · rfl
  · exact ⟨rfl, rfl, rfl⟩

theorem setSlot_sameRecords {p : Part} {i : SlotNo} {x : Slot}
    (h : x.gen = (p.slot i).gen ∧ x.contents = (p.slot i).contents ∧ x.shadow = (p.slot i).shadow) : SameRecords p (p.setSlot i x) := by
  refine ⟨fun j => ?_, rfl, fun _ => rfl⟩
  rw [slot_setSlot]
  split
  · next e => subst e; exact h
  · exact ⟨rfl, rfl, rfl⟩

theorem StoreLaws.repair_same {p : Part} (w : StoreLaws p) (i : SlotNo) (r : Reader) : SameRecords p (repair i r p) := by
  obtain ⟨a, b, c, d, e⟩ := repair_shape i r p
  rw [e]
  exact (setSlot_sameRecords (repaired_same w i)).trans ⟨fun _ => ⟨rfl, rfl, rfl⟩, rfl, fun _ => rfl⟩

theorem repair_lawful (i : SlotNo) (r : Reader) (p : Part) : Lawful p (repair i r p) := by
  refine ⟨fun w => (w.repair_same i r).storeLaws w, ?_⟩
  obtain ⟨a, b, c, d, e⟩ := repair_shape i r p
  rw [e]
  exact .of_blocks rfl rfl

/-- A slot whose shadow names no record is free, and its clean rewrite changes no stored word (R21). -/
theorem rewriteFree_lawful {i : SlotNo} {p : Part} (h : StoreLaws p → (p.slot i).contents = .nothing) : Lawful p (rewriteFree i p) := by
  refine ⟨fun w => (setSlot_sameRecords ?_).storeLaws w, .of_blocks rfl rfl⟩
  rw [h w, w.shadows i, h w]
  exact ⟨rfl, rfl, rfl⟩

theorem finding_silent {x : Slot} (h : finding x = .silent) : x.shadow.body = .nothing := by
  unfold finding at h
  split at h
  · split at h
    · cases h
    · split at h
      · assumption
      · cases h
  · cases h

theorem StoreLaws.contents_of_silent {p : Part} (w : StoreLaws p) {i : SlotNo} (h : finding (p.slot i) = .silent) :
    (p.slot i).contents = .nothing := by
  have := finding_silent h
  rwa [w.shadows i, shadowOf_eq_nothing_iff] at this

end Sys2Proof.Machine

/-! PROOFS. The laws of records and bundles: LINE CLEAR, condemnation and the read of a slot (1.5, 1.6, 1.8). -/

namespace Sys2Proof.Machine

open Sys2Proof

theorem SameRecords.symm {p q : Part} (h : SameRecords p q) : SameRecords q p :=
  ⟨fun i => ⟨(h.slot i).1.symm, (h.slot i).2.1.symm, (h.slot i).2.2.symm⟩, h.free.symm, fun c => (h.refs c).symm⟩

/-- What a tag names where the laws hold, it names after an operation that touches no record. -/
theorem Kept.bound {p q : Part} (h : Kept p q) {t : Nat} {c : CtxNo} (b : StoreLaws p → Binds t c p) : StoreLaws q → Binds t c q :=
  fun w => h.binds (b (h.records.symm.storeLaws w))

/-! LINE CLEAR in the Record Store (R22, R27, R73). -/

theorem StoreLaws.mem_liveSlots_iff {p : Part} (w : StoreLaws p) (i : SlotNo) : i ∈ liveSlots p ↔ (p.slot i).contents ≠ .nothing := by
  rw [liveSlots_eq, List.mem_filter]
  split
  · simp [w.freeSlots i]
  · simp [w.shadowView_eq i, shadowOf_eq_nothing_iff]

theorem nodup_liveSlots (p : Part) : (liveSlots p).Nodup := by
  rw [liveSlots_eq]
  exact (List.nodup_finRange _).filter _

theorem StoreLaws.retireCleared_live {p : Part} (w : StoreLaws p) {i : SlotNo} (live : (p.slot i).contents ≠ .nothing) :
    ∃ cause, retireCleared i p = retireSlot i cause p := by
  unfold retireCleared
  rw [w.shadowView_eq]
  cases h : (p.slot i).contents with
  | nothing => exact absurd h live
  | strip s => exact ⟨.strip .cleared, rfl⟩
  | piece x => exact ⟨.piece .cleared, rfl⟩

/-- A retirement empties its slot, and no other. -/
theorem StoreLaws.retireSlot_contents {p : Part} (w : StoreLaws p) (i : SlotNo) (cause : Retire) (j : SlotNo) :
    ((retireSlot i cause p).slot j).contents = if i = j then .nothing else (p.slot j).contents := by
  cases h : shadowCtx (shadowView (p.slot i)) with
  | some c => rw [retireSlot_slot cause h]; split <;> rfl
  | none =>
    rw [retireSlot_free cause h]
    split
    · next e =>
      subst e
      rw [w.shadowView_eq] at h
      exact (Slot.ctx?_eq_none_iff _).1 h
    · rfl

/-- One live slot of a LINE CLEAR, read and retired whatever its read finds. -/
theorem StoreLaws.clearSlot_live {p : Part} (w : StoreLaws p) (own : Option SlotNo) {i : SlotNo}
    (live : (p.slot i).contents ≠ .nothing) :
    ∃ q cause, SameRecords p q ∧ clearSlot own p i = retireSlot i cause q := by
  have retired {q : Part} (same : SameRecords p q) : ∃ r cause, SameRecords p r ∧ retireCleared i q = retireSlot i cause r := by
    obtain ⟨cause, e⟩ := (same.storeLaws w).retireCleared_live (i := i) (by rw [(same.slot i).2.1]; exact live)
    exact ⟨q, cause, same, e⟩
  unfold clearSlot
  cases h : finding (p.slot i) with
  | readable => exact retired (w.repair_same i .rst)
  | silent => exact absurd (w.contents_of_silent h) live
  | damaged => exact retired (noteDamage_kept .damaged i .rst p).records
  | double =>
    dsimp only
    split
    · exact retired (.refl p)
    · exact retired ((noteDamage_kept .double i .rst p).trans (makeAutomatic_kept _)).records

theorem StoreLaws.clearSlots {p : Part} (w : StoreLaws p) (own : Option SlotNo) {is : List SlotNo} (once : is.Nodup)
    (live : ∀ i ∈ is, (p.slot i).contents ≠ .nothing) :
    StoreLaws (is.foldl (clearSlot own) p)
      ∧ ∀ j, ((is.foldl (clearSlot own) p).slot j).contents = if j ∈ is then .nothing else (p.slot j).contents := by
  induction is generalizing p with
  | nil => exact ⟨w, fun j => by simp⟩
  | cons i is ih =>
    obtain ⟨fresh, once⟩ := List.nodup_cons.1 once
    obtain ⟨q, cause, same, e⟩ := w.clearSlot_live own (live i List.mem_cons_self)
    have wq := same.storeLaws w
    have contents j : ((clearSlot own p i).slot j).contents = if i = j then .nothing else (p.slot j).contents := by
      rw [e, wq.retireSlot_contents, (same.slot j).2.1]
    obtain ⟨h1, h2⟩ := ih (p := clearSlot own p i) (by rw [e]; exact wq.of_retireSlot i cause) once fun j hj => by
      rw [contents, if_neg fun k => fresh (by rw [k]; exact hj)]
      exact live j (List.mem_cons_of_mem _ hj)
    refine ⟨h1, fun j => ?_⟩
    rw [List.foldl_cons, h2, contents]
    by_cases hj : i = j
    · simp [hj]
    · simp [hj, Ne.symm hj]

/-- After the Record Store's part of a LINE CLEAR no record is live, and its laws hold (R27). -/
theorem StoreLaws.clearStore_empties {p : Part} (w : StoreLaws p) (own : Option SlotNo) :
    StoreLaws (clearStore own p) ∧ ∀ i, ((clearStore own p).slot i).contents = .nothing := by
  obtain ⟨laws, contents⟩ := w.clearSlots own (nodup_liveSlots p) fun i h => (w.mem_liveSlots_iff i).1 h
  refine ⟨laws, fun i => ?_⟩
  unfold clearStore
  rw [contents]
  split
  · rfl
  · next h => exact not_not.1 fun k => h ((w.mem_liveSlots_iff i).2 k)

theorem StoreLaws.rewriteEvery_same {p : Part} (w : StoreLaws p) (empty : ∀ i, (p.slot i).contents = .nothing) :
    SameRecords p (rewriteEvery p) := by
  cases h : clearIsAuto p with
  | false => rw [rewriteEvery_idle h]; exact .refl p
  | true =>
    refine ⟨fun i => ?_, by simp [rewriteEvery, h], fun c => by simp [rewriteEvery, h, Part.ctx]⟩
    rw [rewriteEvery_slot h, w.genView_eq, empty i, w.shadows i, empty i]
    exact ⟨rfl, rfl, rfl⟩

theorem clearRefs_refs (p : Part) (c : CtxNo) : ((clearRefs p).ctx c).refs = 0 := by
  simp [clearRefs, Part.ctx]

theorem StoreLaws.clearRefs_same {p : Part} (w : StoreLaws p) (empty : ∀ i, (p.slot i).contents = .nothing) :
    SameRecords p (clearRefs p) := by
  refine ⟨fun _ => ⟨rfl, rfl, rfl⟩, rfl, fun c => ?_⟩
  rw [clearRefs_refs, w.references c]
  simp [boundTo_iff, fun i => (Slot.ctx?_eq_none_iff _).2 (empty i)]

/-- What a LINE CLEAR carries out before the Record Store's part. -/
theorem blocksCleared_kept (own : Option SlotNo) (reply : Option Nat) (p : Part) :
    Kept p (clearBays (clearOrders (clearPlanner (clearActions (clearTracker (startClear own.isSome reply p)))))) :=
  (((((startClear_kept _ reply p).trans (clearTracker_kept _)).trans (clearActions_kept _)).trans (clearPlanner_kept _)).trans
    (clearOrders_kept _)).trans (clearBays_kept _)

/-- After a LINE CLEAR no record is live, and the laws of the store hold (R27). -/
theorem StoreLaws.lineClear_empties {p : Part} (w : StoreLaws p) (own : Option SlotNo) (reply : Option Nat) :
    StoreLaws (lineClear own reply p) ∧ ∀ i, ((lineClear own reply p).slot i).contents = .nothing := by
  unfold lineClear
  obtain ⟨laws, empty⟩ := ((blocksCleared_kept own reply p).records.storeLaws w).clearStore_empties own
  have rewritten := laws.rewriteEvery_same empty
  have laws' := rewritten.storeLaws laws
  have empty' i := ((rewritten.slot i).2.1).trans (empty i)
  have counted := laws'.clearRefs_same empty'
  exact ⟨counted.storeLaws laws', fun i => ((counted.slot i).2.1).trans (empty' i)⟩

theorem retireCleared_bundles (i : SlotNo) (p : Part) : SameBundles p (retireCleared i p) := by
  unfold retireCleared
  split
  · exact retireSlot_bundles _ _ p
  · exact retireSlot_bundles _ _ p
  · exact .of_blocks rfl rfl

theorem clearSlot_bundles (own : Option SlotNo) (p : Part) (i : SlotNo) : SameBundles p (clearSlot own p i) := by
  unfold clearSlot
  split
  · exact (repair_lawful i .rst p).bundles.trans (retireCleared_bundles i _)
  · exact .refl p
  · exact (noteDamage_kept _ i .rst p).bundles.trans (retireCleared_bundles i _)
  · split
    · exact retireCleared_bundles i p
    · exact ((noteDamage_kept _ i .rst p).trans (makeAutomatic_kept _)).bundles.trans (retireCleared_bundles i _)

theorem rewriteEvery_bundles (p : Part) : SameBundles p (rewriteEvery p) := by
  unfold rewriteEvery
  split
  · exact .of_blocks rfl rfl
  · exact .refl p

theorem lineClear_lawful (own : Option SlotNo) (reply : Option Nat) (p : Part) : Lawful p (lineClear own reply p) := by
  refine ⟨fun w => (w.lineClear_empties own reply).1, ?_⟩
  have store (q : Part) : SameBundles q (clearStore own q) :=
    foldl_within SameBundles.refl SameBundles.trans (clearSlot_bundles own) _ q
  have rewritten := ((blocksCleared_kept own reply p).bundles.trans (store _)).trans (rewriteEvery_bundles _)
  unfold lineClear
  generalize rewriteEvery _ = q at rewritten ⊢
  exact rewritten.trans (.of_blocks rfl rfl)

theorem automaticClear_lawful (i : SlotNo) (r : Reader) (p : Part) : Lawful p (automaticClear i r p) :=
  (noteDamage_kept _ i r p).lawful.trans (lineClear_lawful _ _ _)

/-! Condemnation (R17 to R20). -/

theorem undoPiece_kept (tag : Nat) (x : PieceShadow) (p : Part) : Kept p (undoPiece tag x p) := by
  have shares : Kept p (if x.state = .assigned then
      match x.bay with
      | none => p
      | some b => undoTransit b x.area ((x.foot - 2 * trimOf x.ctx p) / 10) (removeKick b tag p)
    else
      match x.reserved with
      | none => p
      | some o => lowerReserved o x.area p) := by
    split
    · split
      · exact .refl p
      · exact (removeKick_kept _ tag p).trans (undoTransit_kept _ _ _ _)
    · split
      · exact .refl p
      · exact lowerReserved_kept _ _ p
  unfold undoPiece
  dsimp only
  split
  · exact shares
  · exact shares.trans (removeTag_kept _ tag _)

theorem condemnPieceSlot_lawful (i : SlotNo) (cause : PieceRetire) (p : Part) : Lawful p (condemnPieceSlot i cause p) := by
  unfold condemnPieceSlot
  split
  · exact (undoPiece_kept _ _ p).lawful.trans (retire_lawful i _ _)
  · exact .refl p
  · exact .refl p

theorem condemnChild_lawful (acc : Bool × Part) (i : SlotNo) : Lawful acc.2 (condemnChild acc i).2 := by
  unfold condemnChild
  split
  · exact .refl _
  · split
    · exact (repair_lawful i .rst acc.2).trans (condemnPieceSlot_lawful i _ _)
    · exact .refl _
    · exact (noteDamage_kept _ i .rst acc.2).lawful.trans (condemnPieceSlot_lawful i _ _)
    · exact automaticClear_lawful i .rst acc.2

theorem condemnChildren_lawful (tag : Nat) (except : Option SlotNo) (p : Part) : Lawful p (condemnChildren tag except p).2 :=
  Lawful.foldl_snd condemnChild_lawful _ (false, p)

theorem removeStripEntry_kept (tag : Nat) (loc : Option (Zone × Nat)) (p : Part) : Kept p (removeStripEntry tag loc p) := by
  unfold removeStripEntry
  split
  · exact .refl p
  · exact removeTag_kept _ tag p

theorem condemnStrip_lawful (i : SlotNo) (except : Option SlotNo) (p : Part) : Lawful p (condemnStrip i except p).2 := by
  unfold condemnStrip
  split
  · exact .refl p
  · exact .refl p
  · next x _ =>
    have removed : Lawful p (retire i (.strip .damaged)
        (cancel (.deadline (tagOf (p.slot i).shadow.gen i)) (removeStripEntry (tagOf (p.slot i).shadow.gen i) x.loc p))) :=
      ((removeStripEntry_kept _ x.loc p).trans (cancel_kept _ _)).lawful.trans (retire_lawful i _ _)
    dsimp only
    split
    · have children := (cancelSaw_kept (tagOf (p.slot i).shadow.gen i) p).lawful.trans
        (condemnChildren_lawful (tagOf (p.slot i).shadow.gen i) except _)
      generalize condemnChildren (tagOf (p.slot i).shadow.gen i) except (cancelSaw (tagOf (p.slot i).shadow.gen i) p) = r at children
      obtain ⟨cleared, q⟩ := r
      dsimp only
      split
      · exact children
      · refine children.trans (Lawful.trans (Kept.lawful (Kept.trans ?_ (leaveCutList_kept _ _))) (retire_lawful i _ _))
        split
        · exact .refl q
        · exact wasteWhole_kept _ _ q
    · have children := condemnChildren_lawful (tagOf (p.slot i).shadow.gen i) except p
      generalize condemnChildren (tagOf (p.slot i).shadow.gen i) except p = r at children
      obtain ⟨cleared, q⟩ := r
      dsimp only
      split
      · exact children
      · exact children.trans ((removeStripEntry_kept _ x.loc q).lawful.trans (retire_lawful i _ _))
    · exact (((leavePlanner_kept _ p).trans (removeStripEntry_kept _ x.loc _)).trans (cancel_kept _ _)).lawful.trans
        (retire_lawful i _ _)
    all_goals exact removed

/-- The record that a tag names where the laws hold carries the tag. -/
theorem recordAt_binds {t : Nat} {q : Part} (w : StoreLaws q) {u : Nat} {c : CtxNo} (tag : recordTag (recordAt t q) = some u)
    (ctx : shadowCtx (shadowOf (recordAt t q)) = some c) : Binds u c q ∧ u = t := by
  unfold recordAt at tag ctx
  split at tag
  · next gen =>
    rw [if_pos gen] at ctx
    have e : u = t := by rw [w.tags _ u tag, gen, tagOf_slotOf]
    exact ⟨⟨by rw [e]; exact gen, by rw [e]; exact ctx⟩, e⟩
  · cases tag

theorem recordAt_strip_binds {t : Nat} {q : Part} {s : Strip} (h : recordAt t q = .strip s) (w : StoreLaws q) :
    Binds s.tag s.ctx q ∧ s.tag = t := recordAt_binds w (by rw [h]; rfl) (by rw [h]; rfl)

theorem recordAt_piece_binds {t : Nat} {q : Part} {x : Piece} (h : recordAt t q = .piece x) (w : StoreLaws q) :
    Binds x.tag x.ctx q ∧ x.tag = t := recordAt_binds w (by rw [h]; rfl) (by rw [h]; rfl)

theorem writeVoid_lawful (tag parent : Nat) (p : Part) : Lawful p (writeVoid tag parent p) := by
  unfold writeVoid
  split
  · next s h => exact writeStrip_lawful fun w => (recordAt_strip_binds h w).1
  · exact .refl p
  · exact .refl p

theorem voidPlace_lawful (r : Reader) (tag parent : Nat) (except : Option SlotNo) (p : Part) :
    Lawful p (voidPlace r tag parent except p).2 := by
  unfold voidPlace
  dsimp only
  split
  · exact (repair_lawful _ r p).trans (writeVoid_lawful tag parent _)
  · next h => exact rewriteFree_lawful fun w => w.contents_of_silent h
  · exact (noteDamage_kept _ _ r p).lawful.trans (condemnStrip_lawful _ except _)
  · exact automaticClear_lawful _ r p

theorem condemnPiece_lawful (i : SlotNo) (x : PieceShadow) (p : Part) : Lawful p (condemnPiece i x p).2 := by
  have undone := (undoPiece_kept (tagOf (p.slot i).shadow.gen i) x p).lawful
  unfold condemnPiece
  dsimp only
  split
  · have void := undone.trans (voidPlace_lawful .rst (tagOf (p.slot i).shadow.gen i) x.parent (some i) _)
    split
    · exact void
    · exact void.trans (retire_lawful i _ _)
  · split
    · exact undone
    · exact undone.trans (retire_lawful i _ _)

theorem condemn_lawful (i : SlotNo) (r : Reader) (p : Part) : Lawful p (condemn i r p).2 := by
  have noted := (noteDamage_kept .damaged i r p).lawful
  unfold condemn
  dsimp only
  split
  · exact noted.trans (condemnStrip_lawful i none _)
  · exact noted.trans (condemnPiece_lawful i _ _)
  · exact noted

/-! The read and the tag check (R6, R14). -/

theorem readSlot_lawful (i : SlotNo) (r : Reader) (p : Part) : Lawful p (readSlot i r p).2 := by
  unfold readSlot
  split
  · exact repair_lawful i r p
  · next h => exact rewriteFree_lawful fun w => w.contents_of_silent h
  · exact condemn_lawful i r p
  · exact automaticClear_lawful i r p

theorem lookup_part (tag : Nat) (r : Reader) (p : Part) : (lookup tag r p).2 = (readSlot (slotOf tag) r p).2 := by
  unfold lookup
  split
  · next h => split <;> rw [h]
  · next h => rw [h]
  · next h => rw [h]

theorem lookup_lawful (tag : Nat) (r : Reader) (p : Part) : Lawful p (lookup tag r p).2 := by
  rw [lookup_part]
  exact readSlot_lawful _ r p

/-- What a tag check that finds a record leaves (R6). -/
theorem lookup_lawful_of {tag : Nat} {r : Reader} {p q : Part} {x : Lookup} (h : lookup tag r p = (x, q)) : Lawful p q := by
  have := lookup_lawful tag r p
  rwa [h] at this

theorem lookup_recordAt_strip {tag : Nat} {r : Reader} {p q : Part} {s : Strip} (h : lookup tag r p = (.strip s, q)) :
    recordAt tag q = .strip s := by
  unfold lookup at h
  split at h
  · split at h
    · next k => cases h; exact k
    · cases h
    · cases h
  · cases h
  · cases h

theorem lookup_recordAt_piece {tag : Nat} {r : Reader} {p q : Part} {x : Piece} (h : lookup tag r p = (.piece x, q)) :
    recordAt tag q = .piece x := by
  unfold lookup at h
  split at h
  · split at h
    · cases h
    · next k => cases h; exact k
    · cases h
  · cases h
  · cases h

/-- A strip that a tag check finds is bound where the laws hold (R6, R61). -/
theorem lookup_strip_bound {tag : Nat} {r : Reader} {p q : Part} {s : Strip} (h : lookup tag r p = (.strip s, q)) :
    StoreLaws q → Binds s.tag s.ctx q := fun w => (recordAt_strip_binds (lookup_recordAt_strip h) w).1

theorem lookup_piece_bound {tag : Nat} {r : Reader} {p q : Part} {x : Piece} (h : lookup tag r p = (.piece x, q)) :
    StoreLaws q → Binds x.tag x.ctx q := fun w => (recordAt_piece_binds (lookup_recordAt_piece h) w).1

end Sys2Proof.Machine

/-! PROOFS. The laws of records and bundles: the line's events, the planner, the sort decision and the eyes (chapters 1, 2, 4, 6 to 9). -/

namespace Sys2Proof.Machine

open Sys2Proof

/-! A step that goes on unless a read has cleared the line (R22). -/

theorem unlessCleared_lawful {p : Part} {x : Bool × Part} {f : Part → Part} (h : Lawful p x.2) (k : ∀ q, Lawful q (f q)) :
    Lawful p (unlessCleared x f) := by
  unfold unlessCleared
  split
  · exact h
  · exact h.trans (k _)

theorem thenStep_lawful {p : Part} {x : Bool × Part} {f : Part → Bool × Part} (h : Lawful p x.2) (k : ∀ q, Lawful q (f q).2) :
    Lawful p (thenStep x f).2 := by
  unfold thenStep
  split
  · exact h
  · exact h.trans (k _)

/-- A change of other blocks first, then another operation. -/
theorem Lawful.after_blocks {p q r : Part} (k : Lawful q r) (rst : q.rst = p.rst) (contexts : q.cpl.contexts = p.cpl.contexts)
    (ort : q.ort = p.ort) (bas : q.bas = p.bas) : Lawful p r := (Kept.of_blocks rst contexts ort bas).lawful.trans k

theorem Lawful.of_blocks {p q : Part} (rst : q.rst = p.rst) (contexts : q.cpl.contexts = p.cpl.contexts) (ort : q.ort = p.ort)
    (bas : q.bas = p.bas) : Lawful p q := (Kept.of_blocks rst contexts ort bas).lawful

/-- Another operation first, then a change of other blocks. -/
theorem Lawful.then_blocks {p q r : Part} (k : Lawful p q) (rst : r.rst = q.rst) (contexts : r.cpl.contexts = q.cpl.contexts)
    (ort : r.ort = q.ort) (bas : r.bas = q.bas) : Lawful p r := k.trans (Kept.of_blocks rst contexts ort bas).lawful

/-! Reservations (R157, R159). -/

theorem release_bundles (x : Piece) (p : Part) : SameBundles p (release x p) := by
  unfold release
  split
  · exact .refl p
  · exact (lowerReserved_kept _ _ p).bundles.trans (writeRecord_bundles _ _ _)

/-- A release keeps the laws, and the piece bound as it was. -/
theorem release_bound {x : Piece} {p : Part} (b : Binds x.tag x.ctx p) : Binds x.tag x.ctx (release x p) := by
  unfold release
  split
  · exact b
  · next o _ =>
    have k := (lowerReserved_kept o x.area p).binds b
    exact k.of_writePiece (x := { x with reserved := none }) k

theorem release_lawful {x : Piece} {p : Part} (h : StoreLaws p → Binds x.tag x.ctx p) : Lawful p (release x p) := by
  unfold release
  split
  · exact .refl p
  · exact (lowerReserved_kept _ _ p).lawful.trans (writePiece_lawful (x := { x with reserved := none })
      ((lowerReserved_kept _ _ p).bound h))

theorem reservePiece_lawful {x : Piece} {p : Part} (h : StoreLaws p → Binds x.tag x.ctx p) : Lawful p (reservePiece x p) := by
  unfold reservePiece
  split
  · exact .refl p
  · split
    · exact .refl p
    · next o _ =>
      have raised : Kept p (changeOrder o (fun y => { y with reservedArea := y.reservedArea + x.area }) p) :=
        changeOrder_kept o (fun _ => by rfl) p
      exact raised.lawful.trans (writePiece_lawful (x := { x with reserved := some o }) (raised.bound h))

/-! Ends of pieces and strips (R8, R12, R29, R47). -/

theorem endPiece_lawful {x : Piece} {p : Part} (cause : PieceRetire) (h : StoreLaws p → Binds x.tag x.ctx p) :
    Lawful p (endPiece x cause p) := by
  have released := release_lawful h
  unfold endPiece
  dsimp only
  split
  · exact (released.trans (removeTag_kept .C x.tag _).lawful).trans (retire_lawful _ _ _)
  · exact released.trans (retire_lawful _ _ _)

theorem endPlace_lawful (r : Reader) (cause : PieceRetire) (states : List PieceState) (acc : Bool × Part) (e : PlanEntry) :
    Lawful acc.2 (endPlace r cause states acc e).2 := by
  unfold endPlace
  split
  · exact .refl _
  · split
    · exact .refl _
    · split
      · next x q h =>
        dsimp only
        split
        · exact (lookup_lawful_of h).trans (endPiece_lawful cause (lookup_piece_bound h))
        · exact lookup_lawful_of h
      · next h => exact lookup_lawful_of h
      · next h => exact lookup_lawful_of h

theorem endPieces_lawful (r : Reader) (cause : PieceRetire) (states : List PieceState) (s : Strip) (p : Part) :
    Lawful p (endPieces r cause states s p).2 := Lawful.foldl_snd (endPlace_lawful r cause states) _ (false, p)

theorem rejectStrip_lawful (r : Reader) (cause : RejectCause) {s : Strip} {p : Part} (h : StoreLaws p → Binds s.tag s.ctx p) :
    Lawful p (rejectStrip r cause s p).2 := by
  unfold rejectStrip
  split
  · exact writeStrip_lawful h
  · have out := (leavePlanner_kept s.tag p).trans (cancel_kept (.deadline s.tag) _)
    have written : Lawful p (writeStrip { s with state := .rejecting, reject := some cause }
        (cancel (.deadline s.tag) (leavePlanner s.tag p))) :=
      out.lawful.trans (writeStrip_lawful (s := { s with state := .rejecting, reject := some cause }) (out.bound h))
    dsimp only
    split
    · exact written.trans (endPieces_lawful r .discarded [.planned] s _)
    · exact written

theorem loseStrip_lawful (s : Strip) (p : Part) : Lawful p (loseStrip s p) := by
  have out := ((leavePlanner_kept s.tag p).trans (cancel_kept (.deadline s.tag) _)).lawful
  unfold loseStrip
  dsimp only
  refine unlessCleared_lawful ?_ fun q => retire_lawful _ _ q
  split
  · exact out.trans (endPieces_lawful .ztr .discarded [.planned] s _)
  · exact out

theorem undoShare_lawful {x : Piece} {p : Part} (h : StoreLaws p → Binds x.tag x.ctx p) : Lawful p (undoShare x p) := by
  unfold undoShare
  split
  · exact (cancelKick_kept x p).lawful
  · exact release_lawful h

theorem losePiece_lawful {x : Piece} {p : Part} (h : StoreLaws p → Binds x.tag x.ctx p) : Lawful p (losePiece x p) :=
  (undoShare_lawful h).trans (retire_lawful _ _ _)

theorem loseHead_lawful (z : Zone) (p : Part) : Lawful p (loseHead z p) := by
  have popped := (popHead_kept z p).lawful
  unfold loseHead
  split
  · exact .refl p
  · dsimp only
    split
    · exact popped
    · split
      · next h => exact (popped.trans (lookup_lawful_of h)).trans (loseStrip_lawful _ _)
      · next h => exact (popped.trans (lookup_lawful_of h)).trans (losePiece_lawful (lookup_piece_bound h))
      · next h => exact popped.trans (lookup_lawful_of h)

theorem overflow_lawful (up down : Zone) (hit : Bool) (p : Part) : Lawful p (overflow up down hit p) := by
  unfold overflow
  dsimp only
  split
  · exact (setFault_kept _ p).lawful.trans (loseHead_lawful up _)
  · exact (setFault_kept _ p).lawful

/-! UNSURE marking (R35). -/

theorem markRecord_lawful (acc : Bool × Part) (t : Nat) : Lawful acc.2 (markRecord acc t).2 := by
  unfold markRecord
  split
  · exact .refl _
  · split
    · next s q h =>
      exact (lookup_lawful_of h).trans (rejectStrip_lawful .ztr .unsure (s := { s with unsure := true }) (lookup_strip_bound (s := s) h))
    · next x q h =>
      dsimp only
      split
      · exact ((lookup_lawful_of h).trans (cancelKick_kept x q).lawful).trans (writePiece_lawful
          (x := { x with unsure := true, state := .unsorted, bay := none, serial := none })
          ((cancelKick_kept x q).bound (lookup_piece_bound (x := x) h)))
      · exact (lookup_lawful_of h).trans (writePiece_lawful (x := { x with unsure := true }) (lookup_piece_bound (x := x) h))
    · next h => exact lookup_lawful_of h
    · next h => exact lookup_lawful_of h

theorem markUnsure_lawful (z : Zone) (p : Part) : Lawful p (markUnsure z p) := Lawful.foldl_snd markRecord_lawful _ (false, p)

/-! Whole-strip waste and scheduling (R118 to R122). -/

theorem wasteStrip_lawful (tag lead : Nat) (p : Part) : Lawful p (wasteStrip tag lead p) := by
  unfold wasteStrip
  split
  · exact ((wasteWhole_kept lead _ p).lawful.trans (retire_lawful _ _ _)).trans (countEvent_kept _ _).lawful
  · exact .refl p
  · exact .refl p

theorem rejectAndWaste_lawful (cause : RejectCause) {s : Strip} (lead : Nat) {p : Part} (h : StoreLaws p → Binds s.tag s.ctx p) :
    Lawful p (rejectAndWaste cause s lead p) :=
  unlessCleared_lawful (rejectStrip_lawful .ztr cause h) fun q => wasteStrip_lawful s.tag lead q

theorem enterPlace_lawful (lead : Nat) (acc : Bool × Part) (e : PlanEntry) : Lawful acc.2 (enterPlace lead acc e).2 := by
  unfold enterPlace
  split
  · exact .refl _
  · dsimp only
    split
    · exact (joinTail_kept _ _ _).lawful
    · split
      · next t _ x q h =>
        exact ((lookup_lawful_of h).trans (writePiece_lawful
          (x := { x with state := .beltC, lead := some (wrap .C (lead + e.start)) }) (lookup_piece_bound (x := x) h))).trans
          (joinTail_kept _ _ _).lawful
      · next h => exact lookup_lawful_of h
      · next h => exact (lookup_lawful_of h).trans (joinTail_kept _ _ _).lawful

theorem schedule_lawful {s : Strip} (lead : Nat) {p : Part} (h : StoreLaws p → Binds s.tag s.ctx p) : Lawful p (schedule s lead p) := by
  have sawn := appendSaw_kept (sawTargets s lead p) s.tag p
  have written := sawn.lawful.trans (writeStrip_lawful
    (s := { s with state := .cutting, leadC := some lead, pendingSaw := (sawTargets s lead p).length }) (sawn.bound h))
  unfold schedule
  dsimp only
  generalize writeStrip _ (appendSaw _ _ _) = q at written ⊢
  refine unlessCleared_lawful ?_ fun r => ?_
  · exact written.trans ((Lawful.foldl_snd (enterPlace_lawful lead) _ (false, _)).after_blocks rfl rfl rfl rfl)
  · have wasted : Kept r ((flapTargets s lead p).foldl (fun q w => enterWaste w.1 (some w.2) q) r) :=
      Kept.foldl (fun q (w : Nat × Nat) => enterWaste_kept w.1 (some w.2) q) _ r
    split
    · exact (wasted.trans (leaveCutList_kept s.tag _)).lawful.trans (retire_lawful _ _ _)
    · exact wasted.lawful

theorem cEyeStrip_lawful {s : Strip} (lead : Nat) {p : Part} (h : StoreLaws p → Binds s.tag s.ctx p) : Lawful p (cEyeStrip s lead p) := by
  unfold cEyeStrip
  split
  · split
    · exact schedule_lawful lead h
    · exact rejectAndWaste_lawful _ lead h
  · exact rejectAndWaste_lawful _ lead h
  · exact rejectAndWaste_lawful _ lead h
  · exact rejectAndWaste_lawful _ lead h
  · exact rejectAndWaste_lawful _ lead h
  · exact wasteStrip_lawful s.tag lead p
  · exact rejectAndWaste_lawful _ lead h
  · exact rejectAndWaste_lawful _ lead h
  · exact .refl p

theorem sawFires_lawful {s : Strip} (target : Nat) {p : Part} (h : StoreLaws p → Binds s.tag s.ctx p) : Lawful p (sawFires s target p) := by
  have fired : Kept p (arm .lastCut (wrap .C (target + p.ztr.geo.rSaw)) (cancel .lastCut { p with
      acu.sawPulse := some p.acu.sawWidth
      acu.saw := p.acu.saw.drop 1
      acu.lastCut := some target })) := ((cancel_kept .lastCut _).trans (arm_kept _ _ _)).after_blocks rfl rfl rfl rfl
  have written := fired.lawful.trans (writeStrip_lawful (s := { s with pendingSaw := s.pendingSaw - 1 }) (fired.bound h))
  unfold sawFires
  dsimp only
  split
  · exact (written.trans (leaveCutList_kept s.tag _).lawful).trans (retire_lawful _ _ _)
  · exact written

theorem takeSaw_lawful (p : Part) : Lawful p (takeSaw p) := by
  unfold takeSaw
  split
  · exact .refl p
  · split
    · next h => exact (lookup_lawful_of h).trans (sawFires_lawful _ (lookup_strip_bound h))
    · next h => exact (lookup_lawful_of h).then_blocks rfl rfl rfl rfl
    · next h => exact (lookup_lawful_of h).then_blocks rfl rfl rfl rfl
    · next h => exact lookup_lawful_of h
    · next h => exact lookup_lawful_of h

/-! The Cut Planner (chapter 4). -/

theorem takeDeadline_lawful (tag : Nat) (p : Part) : Lawful p (takeDeadline tag p) := by
  unfold takeDeadline
  split
  · next h =>
    split
    · exact (lookup_lawful_of h).trans (rejectStrip_lawful .cpl .noMap (lookup_strip_bound h))
    · exact lookup_lawful_of h
  · next h => exact lookup_lawful_of h

theorem beginPlan_lawful {s : Strip} {p : Part} (h : StoreLaws p → Binds s.tag s.ctx p) : Lawful p (beginPlan s p) := by
  have busy : Kept p { p with cpl.job := some ⟨s.tag, snapshotOf s p, false⟩ } := .of_blocks rfl rfl rfl rfl
  exact busy.lawful.trans (writeStrip_lawful (s := { s with state := .planning }) (busy.bound h))

theorem takeHeads_lawful (n : Nat) (p : Part) : Lawful p (takeHeads n p) := by
  induction n generalizing p with
  | zero => exact .refl p
  | succ n ih =>
    unfold takeHeads
    split
    · exact .refl p
    · next t rest _ =>
      split
      · next s q h =>
        have out : Kept q { q with cpl.queue := rest } := .of_blocks rfl rfl rfl rfl
        exact ((lookup_lawful_of h).trans out.lawful).trans (beginPlan_lawful (out.bound (lookup_strip_bound h)))
      · next h => exact lookup_lawful_of h
      · next h => exact ((lookup_lawful_of h).trans (leavePlanner_kept t _).lawful).trans (ih _)

theorem startPlanning_lawful (p : Part) : Lawful p (startPlanning p) := by
  unfold startPlanning
  split
  · exact .refl p
  · exact takeHeads_lawful _ p

theorem allocatePieces_bundles (s : Strip) (k : Nat) (pls : List Place) (p : Part) : SameBundles p (allocatePieces s k pls p).2 := by
  induction pls generalizing k p with
  | nil => exact .refl p
  | cons pl rest ih =>
    unfold allocatePieces
    split
    · exact .refl p
    · next h => exact (allocate_bundles h).trans (ih _ _)

/-- A group allocation keeps the laws, and what was bound before it stays bound (R4). -/
theorem allocatePieces_laws (s : Strip) (k : Nat) (pls : List Place) {p : Part} (w : StoreLaws p) :
    StoreLaws (allocatePieces s k pls p).2 ∧ ∀ t c, Binds t c p → Binds t c (allocatePieces s k pls p).2 := by
  induction pls generalizing k p with
  | nil => exact ⟨w, fun _ _ => id⟩
  | cons pl rest ih =>
    unfold allocatePieces
    split
    · exact ⟨w, fun _ _ => id⟩
    · next t q h =>
      obtain ⟨wq, -, kept⟩ := w.of_allocate h (fun _ => rfl) fun _ => rfl
      obtain ⟨wr, later⟩ := ih (k + 1) wq
      exact ⟨wr, fun t c b => later t c (kept t c b)⟩

theorem attributePiece_lawful (p : Part) (t : Nat) : Lawful p (attributePiece p t) := by
  unfold attributePiece
  split
  · next h => exact reservePiece_lawful fun w => (recordAt_piece_binds h w).1
  · exact .refl p
  · exact .refl p

theorem applyPlan_lawful {s : Strip} (pls : List Place) {p : Part} (h : StoreLaws p → Binds s.tag s.ctx p) :
    Lawful p (applyPlan s pls p) := by
  have settled := (reevaluate_kept false (allocatePieces s 1 pls p).2).trans (cancel_kept (.deadline s.tag) _)
  have written : Lawful p (writeStrip { s with state := .planned, plan := some (planOf pls (allocatePieces s 1 pls p).1) }
      (cancel (.deadline s.tag) (reevaluate false (allocatePieces s 1 pls p).2))) := by
    refine ⟨fun w => ?_, ((allocatePieces_bundles s 1 pls p).trans settled.bundles).trans (writeRecord_bundles _ _ _)⟩
    obtain ⟨wq, kept⟩ := allocatePieces_laws s 1 pls w
    exact (writeStrip_lawful (s := { s with state := .planned, plan := some (planOf pls (allocatePieces s 1 pls p).1) })
      fun _ => settled.binds (kept _ _ (h w))).store (settled.records.storeLaws wq)
  exact written.trans (Lawful.foldl attributePiece_lawful _ _)

theorem applyResult_lawful {s : Strip} (pls : List Place) {p : Part} (h : StoreLaws p → Binds s.tag s.ctx p) :
    Lawful p (applyResult s pls p) := by
  unfold applyResult
  split
  · exact rejectStrip_lawful .cpl .empty (s := { s with plan := some ⟨0, []⟩ }) h
  · split
    · exact rejectStrip_lawful .cpl .noSlots h
    · exact applyPlan_lawful pls h

theorem completePlan_lawful (p : Part) : Lawful p (completePlan p) := by
  unfold completePlan
  split
  · exact .refl p
  · next j _ =>
    split
    · next s q h =>
      have applied : Lawful p (if j.discard = false ∧ s.state = .planning then applyResult s (choosePlan j.snapshot) q else q) := by
        split
        · exact (lookup_lawful_of h).trans (applyResult_lawful _ (lookup_strip_bound h))
        · exact lookup_lawful_of h
      dsimp only
      generalize (if j.discard = false ∧ s.state = .planning then applyResult s (choosePlan j.snapshot) q else q) = r at applied ⊢
      have done : Kept r { r with cpl.job := none } := .of_blocks rfl rfl rfl rfl
      exact (applied.trans done.lawful).trans (startPlanning_lawful _)
    · next x q _ h =>
      have done : Kept q { q with cpl.job := none } := .of_blocks rfl rfl rfl rfl
      exact ((lookup_lawful_of h).trans done.lawful).trans (startPlanning_lawful _)

/-! The sort decision and the landing (chapter 9). -/

theorem unsort_lawful {x : Piece} {p : Part} (h : StoreLaws p → Binds x.tag x.ctx p) : Lawful p (unsort x p) :=
  ⟨fun w => (writePiece_lawful (x := { x with state := .unsorted, reserved := none })
      fun _ => release_bound (x := x) (h w)).store ((release_lawful h).store w),
    (release_bundles x p).trans (writeRecord_bundles _ _ _)⟩

theorem assign_lawful {x : Piece} (b : BayNo) {p : Part} (h : StoreLaws p → Binds x.tag x.ctx p) : Lawful p (assign x b p) := by
  have moved (q : Part) := (addTransit_kept b x.area x.len q).trans
    (insertKick_kept b (kickTarget b (x.lead.getD 0) (addTransit b x.area x.len q)) x.tag _)
  unfold assign
  dsimp only
  have released := release_lawful h
  have bound w := release_bound (h w)
  have books := release_bundles x p
  generalize release x p = q at released bound books ⊢
  refine Lawful.trans ⟨fun w => ?_, (books.trans (moved q).bundles).trans (writeRecord_bundles _ _ _)⟩ (closeAtTarget_kept b _).lawful
  exact (writePiece_lawful (x := { x with state := .assigned, reserved := none, bay := some b, serial := _ })
    fun _ => (moved q).binds (bound w)).store ((moved q).records.storeLaws (released.store w))

theorem sortPiece_lawful {x : Piece} {p : Part} (h : StoreLaws p → Binds x.tag x.ctx p) : Lawful p (sortPiece x p) := by
  unfold sortPiece
  split
  · exact unsort_lawful h
  · split
    · exact unsort_lawful h
    · exact assign_lawful _ h

theorem takeSort_lawful (tag : Nat) (p : Part) : Lawful p (takeSort tag p) := by
  unfold takeSort
  split
  · next h =>
    split
    · exact (lookup_lawful_of h).trans (sortPiece_lawful (lookup_piece_bound h))
    · exact lookup_lawful_of h
  · next h => exact lookup_lawful_of h

theorem land_lawful (x : Piece) (b : BayNo) (p : Part) : Lawful p (land x b p) :=
  (((landArea_kept b x.area x.len p).trans (removeTag_kept .E x.tag _)).lawful.trans (retire_lawful _ _ _)).trans
    ((countEvent_kept _ _).trans (closeAfterLanding_kept b _)).lawful

theorem kickFires_lawful (b : BayNo) (x : Piece) (p : Part) : Lawful p (kickFires b x p) := by
  have driven : Kept p { p with acu.kickPulse := p.acu.kickPulse.set b (some p.acu.kickWidth) } := .of_blocks rfl rfl rfl rfl
  exact driven.lawful.trans (land_lawful x b _)

theorem takeKick_lawful (b : BayNo) (tag : Nat) (p : Part) : Lawful p (takeKick b tag p) := by
  unfold takeKick
  split
  · next h =>
    dsimp only
    split
    · exact ((lookup_lawful_of h).trans (removeKick_kept b tag _).lawful).trans (kickFires_lawful b _ _)
    · exact (lookup_lawful_of h).trans (removeKick_kept b tag _).lawful
  · next h => exact (lookup_lawful_of h).trans (removeKick_kept b tag _).lawful

theorem releaseSlot_lawful (o : OrderNo) (acc : Bool × Part) (i : SlotNo) : Lawful acc.2 (releaseSlot o acc i).2 := by
  unfold releaseSlot
  split
  · exact .refl _
  · have read := readSlot_lawful i .lif acc.2
    split
    · next h => rw [h] at read; exact read
    · next h => rw [h] at read; exact read
    · next q h =>
      rw [h] at read
      split
      · next x k =>
        dsimp only
        split
        · refine read.trans (release_lawful fun w => ?_)
          have e : x.tag = tagOf (q.slot i).gen i := w.tags i x.tag (by rw [k]; rfl)
          exact ⟨by rw [e, slotOf_tagOf, genOf_tagOf], by rw [e, slotOf_tagOf, Slot.ctx?, k]; rfl⟩
        · exact read
      · exact read
      · exact read

theorem bulkRelease_lawful (o : OrderNo) (p : Part) : Lawful p (bulkRelease o p).2 :=
  Lawful.foldl_snd (releaseSlot_lawful o) _ (false, p)

/-! The eyes, the load point and the tenoner (chapters 2 and 7). -/

theorem stepForward_kept (z : Zone) (p : Part) : Kept p (stepForward z p) := (setZone_kept z _ p).trans (takeCompares_kept z _ _)

theorem stepReverse_lawful (z : Zone) (p : Part) : Lawful p (stepReverse z p) := by
  have lowered := (setCounter_kept z (minus z (p.counter z) 1) p).lawful
  unfold stepReverse
  dsimp only
  split
  · exact (lowered.trans (markUnsure_lawful z _)).trans (setZone_kept z _ _).lawful
  · exact lowered

theorem allocateStrip_bundles (mk : CtxNo → Nat → Nat → Strip) (p : Part) : SameBundles p (allocateStrip mk p).2 := by
  unfold allocateStrip
  split
  · exact .refl p
  · split
    · exact .refl p
    · next h => exact (allocate_bundles h).trans (reevaluate_kept _ _).bundles

theorem allocateStrip_lawful {mk : CtxNo → Nat → Nat → Strip} (p : Part)
    (made : ∀ c sp t, (mk c sp t).tag = t ∧ (mk c sp t).ctx = c) : Lawful p (allocateStrip mk p).2 := by
  refine ⟨fun w => ?_, allocateStrip_bundles mk p⟩
  unfold allocateStrip
  split
  · exact w
  · next f _ =>
    split
    · exact w
    · next h =>
      refine (reevaluate_kept _ _).records.storeLaws (w.of_allocate h (fun t => ?_) fun t => ?_).1
      · simp only [shadowOf, shadowCtx, (made _ _ _).2]
      · simp only [recordTag, (made _ _ _).1]

theorem enterLine_lawful (p : Part) : Lawful p (enterLine p) := by
  unfold enterLine
  dsimp only
  split
  · exact (countStray_kept p).lawful
  · exact (setFault_kept _ p).lawful
  · have made := allocateStrip_lawful (mk := fun c sp t => newStrip c sp (p.counter .A) t) p fun _ _ _ => ⟨rfl, rfl⟩
    generalize allocateStrip _ p = r at made ⊢
    have counted : Kept r.2 (if r.1.isNone then countUntracked r.2 else r.2) := by
      split
      · exact countUntracked_kept _
      · exact .refl _
    generalize (if r.1.isNone then countUntracked r.2 else r.2) = q at counted ⊢
    exact ((made.trans counted.lawful).trans (joinTail_kept .A (makeEntry .A r.1 (p.counter .A) q) q).lawful).then_blocks rfl rfl rfl rfl

theorem aEyeLeading_lawful (p : Part) : Lawful p (aEyeLeading p) := by
  unfold aEyeLeading
  split
  · exact .refl p
  · dsimp only
    split
    · exact (enterLine_lawful _).after_blocks rfl rfl rfl rfl
    · exact (countUntracked_kept _).lawful.after_blocks rfl rfl rfl rfl

theorem measureA_lawful {s : Strip} (trail : Nat) {p : Part} (h : StoreLaws p → Binds s.tag s.ctx p) : Lawful p (measureA s trail p) := by
  unfold measureA
  dsimp only
  split
  · exact rejectStrip_lawful .ztr .suspectLength
      (s := { s with lenA := some (minus .A trail (s.leadA.getD 0)), suspect := true }) h
  · exact writeStrip_lawful (s := { s with lenA := some (minus .A trail (s.leadA.getD 0)), state := _ }) h

theorem closeA_lawful (p : Part) : Lawful p (closeA p) := by
  unfold closeA
  split
  · split
    · next h => exact (lookup_lawful_of h).trans (measureA_lawful _ (lookup_strip_bound h))
    · next h => exact lookup_lawful_of h
  · exact .refl p
  · exact .refl p

theorem aEyeTrailing_lawful (p : Part) : Lawful p (aEyeTrailing p) := by
  unfold aEyeTrailing
  split
  · exact .refl p
  · dsimp only
    split
    · have closed := closeA_lawful { p with ztr.eyeA := p.ztr.eyeA.trailing (p.counter .A) }
      generalize closeA _ = q at closed ⊢
      exact Lawful.then_blocks (q := q) (closed.after_blocks rfl rfl rfl rfl) rfl rfl rfl rfl
    · exact .of_blocks rfl rfl rfl rfl

theorem joinB_kept (tag : Option Nat) (pos : Nat) (p : Part) : Kept p (joinB tag pos p) :=
  (joinTail_kept .B (makeEntry .B tag pos p) p).trans (.of_blocks rfl rfl rfl rfl)

theorem matchB_lawful (e : Entry) (pos : Nat) (p : Part) : Lawful p (matchB e pos p) := by
  have popped := (popHead_kept .A p).lawful
  unfold matchB
  dsimp only
  split
  · exact popped.trans (joinB_kept _ pos _).lawful
  · split
    · next s q h =>
      exact ((popped.trans (lookup_lawful_of h)).trans (writeStrip_lawful (s := enterB s pos) (lookup_strip_bound (s := s) h))).trans
        (joinB_kept _ pos _).lawful
    · next h => exact popped.trans (lookup_lawful_of h)
    · next h => exact (popped.trans (lookup_lawful_of h)).trans (joinB_kept _ pos _).lawful

theorem untrackedB_lawful (pos : Nat) (p : Part) : Lawful p (untrackedB pos p) :=
  (allocateStrip_lawful (mk := fun c sp t => newUntracked c sp pos t) p fun _ _ _ => ⟨rfl, rfl⟩).trans (joinB_kept _ pos _).lawful

theorem captureB_lawful (p : Part) : Lawful p (captureB p) := by
  unfold captureB
  dsimp only
  split
  · exact (countStray_kept p).lawful
  · exact overflow_lawful _ _ _ p
  · split
    · exact matchB_lawful _ _ p
    · exact untrackedB_lawful _ p

theorem bEyeLeading_lawful (p : Part) : Lawful p (bEyeLeading p) := by
  unfold bEyeLeading
  split
  · exact .refl p
  · dsimp only
    split
    · exact (captureB_lawful _).after_blocks rfl rfl rfl rfl
    · exact .of_blocks rfl rfl rfl rfl

theorem measureB_lawful {s : Strip} (trail : Nat) {p : Part} (h : StoreLaws p → Binds s.tag s.ctx p) : Lawful p (measureB s trail p) := by
  unfold measureB
  dsimp only
  split
  · split
    · exact ((writeStrip_lawful (s := { s with
          lenB := some (minus .B trail (s.leadB.getD 0)), state := .scanning, deadline := _ }) h).trans
        (arm_kept _ _ _).lawful).trans (compose_kept _ _).lawful
    · exact rejectStrip_lawful .ztr .suspectLength
        (s := { s with lenB := some (minus .B trail (s.leadB.getD 0)), suspect := true }) h
  · exact writeStrip_lawful (s := { s with lenB := some (minus .B trail (s.leadB.getD 0)) }) h

theorem closeB_lawful (p : Part) : Lawful p (closeB p) := by
  unfold closeB
  split
  · split
    · next h => exact (lookup_lawful_of h).trans (measureB_lawful _ (lookup_strip_bound h))
    · next h => exact lookup_lawful_of h
  · exact .refl p
  · exact .refl p

theorem bEyeTrailing_lawful (p : Part) : Lawful p (bEyeTrailing p) := by
  unfold bEyeTrailing
  split
  · exact .refl p
  · dsimp only
    split
    · have closed := closeB_lawful { p with ztr.eyeB := p.ztr.eyeB.trailing (p.counter .B) }
      generalize closeB _ = q at closed ⊢
      exact Lawful.then_blocks (q := q) (closed.after_blocks rfl rfl rfl rfl) rfl rfl rfl rfl
    · exact .of_blocks rfl rfl rfl rfl

theorem captureC_lawful (p : Part) : Lawful p (captureC p) := by
  have popped := (popHead_kept .B p).lawful
  unfold captureC
  dsimp only
  split
  · exact (wasteWhole_kept _ _ p).lawful
  · split
    · exact popped.trans (wasteWhole_kept _ _ _).lawful
    · split
      · next h => exact (popped.trans (lookup_lawful_of h)).trans (cEyeStrip_lawful _ (lookup_strip_bound h))
      · next h => exact popped.trans (lookup_lawful_of h)
      · next h => exact (popped.trans (lookup_lawful_of h)).trans (wasteWhole_kept _ _ _).lawful

theorem cEyeLeading_lawful (p : Part) : Lawful p (cEyeLeading p) := by
  unfold cEyeLeading
  split
  · exact .refl p
  · dsimp only
    split
    · exact (captureC_lawful _).after_blocks rfl rfl rfl rfl
    · exact .of_blocks rfl rfl rfl rfl

theorem cEyeTrailing_kept (p : Part) : Kept p (cEyeTrailing p) := by
  unfold cEyeTrailing
  split
  · exact .refl p
  · dsimp only
    split
    · exact (closeOpenEnded_kept _ _).after_blocks rfl rfl rfl rfl
    · exact .of_blocks rfl rfl rfl rfl

theorem joinD_kept (tag : Option Nat) (lug : Nat) (p : Part) : Kept p (joinD tag lug p) := by
  unfold joinD
  dsimp only
  split
  · exact (joinTail_kept .D _ p).trans (arm_kept _ _ _)
  · exact joinTail_kept .D _ p

theorem matchD_lawful (e : Entry) (lug : Nat) (p : Part) : Lawful p (matchD e lug p) := by
  have popped := (popHead_kept .C p).lawful
  unfold matchD
  dsimp only
  split
  · exact popped.trans (joinD_kept _ lug _).lawful
  · split
    · next x q h =>
      exact ((popped.trans (lookup_lawful_of h)).trans (writePiece_lawful
        (x := { x with state := .lug, lug := some lug, lead := some lug }) (lookup_piece_bound (x := x) h))).trans (joinD_kept _ lug _).lawful
    · next h => exact popped.trans (lookup_lawful_of h)
    · next h => exact (popped.trans (lookup_lawful_of h)).trans (joinD_kept _ lug _).lawful

theorem captureD_lawful (p : Part) : Lawful p (captureD p) := by
  unfold captureD
  dsimp only
  split
  · exact (countStray_kept p).lawful
  · exact overflow_lawful _ _ _ p
  · split
    · exact matchD_lawful _ _ p
    · exact (joinD_kept _ _ p).lawful

theorem stepLug_lawful (occupied : Bool) (p : Part) : Lawful p (stepLug occupied p) := by
  have counted := (setCounter_kept .D (wrap .D (p.counter .D + 1)) p).trans (takeCompares_kept .D (wrap .D (p.counter .D + 1)) _)
  unfold stepLug
  dsimp only
  generalize takeCompares _ _ (setCounter _ _ _) = q at counted ⊢
  split
  · exact counted.lawful.trans ((captureD_lawful _).after_blocks rfl rfl rfl rfl)
  · exact counted.lawful.then_blocks rfl rfl rfl rfl

theorem setTenStatus_kept (lug : Nat) (t : TenStatus) (p : Part) : Kept p (setTenStatus lug t p) := setQueue_kept _ _ p

theorem takeTenoner_lawful (lug : Nat) (p : Part) : Lawful p (takeTenoner lug p) := by
  unfold takeTenoner
  split
  · exact .refl p
  · split
    · exact .refl p
    · split
      · next h =>
        split
        · split
          · exact (lookup_lawful_of h).trans ((setTenStatus_kept lug _ _).trans (compose_kept _ _)).lawful
          · exact (lookup_lawful_of h).trans (setTenStatus_kept lug _ _).lawful
        · exact lookup_lawful_of h
      · next h => exact lookup_lawful_of h

theorem joinE_kept (tag : Option Nat) (pos : Nat) (p : Part) : Kept p (joinE tag pos p) := by
  unfold joinE
  dsimp only
  split
  · exact joinTail_kept .E _ p
  · exact (joinTail_kept .E _ p).trans (arm_kept _ _ _)

theorem matchE_lawful (e : Entry) (pos : Nat) (p : Part) : Lawful p (matchE e pos p) := by
  have popped := (popHead_kept .D p).lawful
  unfold matchE
  dsimp only
  split
  · exact popped.trans (joinE_kept _ pos _).lawful
  · split
    · next x q h =>
      exact ((popped.trans (lookup_lawful_of h)).trans (writePiece_lawful (x := { x with state := .beltE, lead := some pos })
        (lookup_piece_bound (x := x) h))).trans (joinE_kept _ pos _).lawful
    · next h => exact popped.trans (lookup_lawful_of h)
    · next h => exact (popped.trans (lookup_lawful_of h)).trans (joinE_kept _ pos _).lawful

theorem captureE_lawful (p : Part) : Lawful p (captureE p) := by
  unfold captureE
  dsimp only
  split
  · exact (countStray_kept p).lawful
  · exact overflow_lawful _ _ _ p
  · split
    · exact matchE_lawful _ _ p
    · exact (joinE_kept _ _ p).lawful

theorem eEyeLeading_lawful (p : Part) : Lawful p (eEyeLeading p) := by
  unfold eEyeLeading
  split
  · exact .refl p
  · dsimp only
    split
    · exact (captureE_lawful _).after_blocks rfl rfl rfl rfl
    · exact .of_blocks rfl rfl rfl rfl

theorem captureX_lawful (p : Part) : Lawful p (captureX p) := by
  have popped := (popHead_kept .E p).lawful
  unfold captureX
  split
  · exact (countStray_kept p).lawful
  · dsimp only
    split
    · exact popped
    · split
      · next h =>
        exact ((popped.trans (lookup_lawful_of h)).trans (undoShare_lawful (lookup_piece_bound h))).trans (retire_lawful _ _ _)
      · next h => exact popped.trans (lookup_lawful_of h)

theorem endEyeLeading_lawful (p : Part) : Lawful p (endEyeLeading p) := by
  unfold endEyeLeading
  split
  · exact .refl p
  · dsimp only
    split
    · exact (captureX_lawful _).after_blocks rfl rfl rfl rfl
    · exact .of_blocks rfl rfl rfl rfl

theorem sorterTrailing_kept (eye : SorterEye) (p : Part) : Kept p (sorterTrailing eye p) := by
  unfold sorterTrailing
  split <;> split
  · exact .of_blocks rfl rfl rfl rfl
  · exact .refl p
  · exact .of_blocks rfl rfl rfl rfl
  · exact .refl p

/-! Compares and targets taken, and the end of every command. -/

theorem takeSawTarget_lawful (t : Nat) (p : Part) : Lawful p (takeSawTarget t p) := by
  unfold takeSawTarget
  split
  · exact .refl p
  · split
    · exact takeSaw_lawful p
    · exact .of_blocks rfl rfl rfl rfl

theorem takeEvent_lawful (e : Event) (p : Part) : Lawful p (takeEvent e p) := by
  cases e with
  | expiry z => exact loseHead_lawful z p
  | deadline t => exact takeDeadline_lawful t p
  | sort t => exact takeSort_lawful t p
  | tenoner l => exact takeTenoner_lawful l p
  | lastCut => exact .of_blocks rfl rfl rfl rfl
  | saw t => exact takeSawTarget_lawful t p
  | wasteOpen t => exact (takeOpenTarget_kept t p).lawful
  | wasteShut t => exact (takeShutTarget_kept t p).lawful
  | kick b t => exact takeKick_lawful b t p

theorem takeDue_lawful (e : Event) (p : Part) : Lawful p (takeDue e p) := by
  unfold takeDue
  split
  · exact (takeEvent_lawful e _).after_blocks rfl rfl rfl rfl
  · exact .refl p

theorem settleOne_lawful (p : Part) : Lawful p (settleOne p) := by
  unfold settleOne
  split
  · exact .refl p
  · exact (takeEvent_lawful _ _).after_blocks rfl rfl rfl rfl

theorem settle_lawful (n : Nat) (p : Part) : Lawful p (settle n p) := by
  induction n generalizing p with
  | zero => exact .refl p
  | succ n ih =>
    unfold settle
    split
    · exact .refl p
    · exact (settleOne_lawful p).trans (ih _)

theorem settleAll_lawful (p : Part) : Lawful p (settleAll p) := by
  have settled := settle_lawful settleFuel p
  unfold settleAll
  dsimp only
  generalize settle settleFuel p = q at settled ⊢
  exact settled.then_blocks rfl rfl rfl rfl

theorem finish_lawful (p : Part) : Lawful p (finish p) := by
  have settled := settleAll_lawful p
  unfold finish
  generalize settleAll p = q at settled ⊢
  exact settled.trans (((flushDeferred_after q).trans (answerAll_after _)).trans (reevaluate_after _ _)).kept.lawful

end Sys2Proof.Machine

/-! PROOFS. Choices made by going through a list once and keeping the best met so far: the order of an opening or an attribution, the bay
of a sort decision (8.4, 9.3, 9.5). -/

namespace Sys2Proof.Machine

open Sys2Proof

/-- The entry kept when a list is gone through once: the first that no other is better than. -/
def firstBest {α : Type} (better : α → α → Bool) : List α → Option α
  | [] => none
  | c :: cs => some (cs.foldl (fun best d => if better d best then d else best) c)

/-- A test of being better that orders its entries in ranks. -/
structure Ranks {α : Type} (better : α → α → Bool) : Prop where
  asymm : ∀ a b, better a b = true → better b a = false
  between : ∀ a b c, better a b = true → better a c = true ∨ better c b = true

theorem Ranks.irrefl {α : Type} {better : α → α → Bool} (h : Ranks better) (a : α) : better a a = false := by
  cases k : better a a with
  | false => rfl
  | true => exact k.symm.trans (h.asymm a a k)

/-- One entry beats another: it is better, or neither is and it stands first. -/
def Beats {α : Type} (better : α → α → Bool) (before : α → α → Prop) (a b : α) : Prop :=
  better a b = true ∨ (better b a = false ∧ before a b)

theorem Ranks.beats_of_better {α : Type} {better : α → α → Bool} {before : α → α → Prop} (h : Ranks better) {a b c : α}
    (k : better a b = true) (g : Beats better before b c) : better a c = true := by
  rcases g with g | ⟨g, -⟩
  · rcases h.between _ _ c k with e | e
    · exact e
    · exact absurd ((h.asymm _ _ g).symm.trans e) Bool.false_ne_true
  · exact (h.between _ _ c k).elim id fun e => absurd (g.symm.trans e) Bool.false_ne_true

/-- Going through a list that stands in order: what is kept is better than the entry it begins with, or is that entry; and beats all. -/
theorem foldl_better_spec {α : Type} {better : α → α → Bool} {before : α → α → Prop} (h : Ranks better) (refl : ∀ a, before a a)
    (cs : List α) (c : α) (ordered : (c :: cs).Pairwise before) :
    let b := cs.foldl (fun best d => if better d best then d else best) c
    b ∈ c :: cs ∧ (b = c ∨ better b c = true) ∧ ∀ d ∈ cs, Beats better before b d := by
  induction cs generalizing c with
  | nil => exact ⟨List.mem_cons_self, .inl rfl, fun _ m => absurd m List.not_mem_nil⟩
  | cons x cs ih =>
    obtain ⟨fromC, rest⟩ := List.pairwise_cons.1 ordered
    obtain ⟨-, rest'⟩ := List.pairwise_cons.1 rest
    rw [List.foldl_cons]
    by_cases k : better x c = true
    · rw [if_pos k]
      obtain ⟨mem, first, best⟩ := ih x rest
      refine ⟨List.mem_cons_of_mem _ mem, .inr ?_, fun d m => ?_⟩
      · rcases first with e | e
        · rw [e]; exact k
        · exact h.beats_of_better (before := before) e (.inl k)
      · rcases List.mem_cons.1 m with rfl | m
        · exact first.elim (fun e => by rw [e]; exact .inr ⟨h.irrefl _, refl _⟩) .inl
        · exact best d m
    · rw [if_neg k]
      have k : better x c = false := Bool.not_eq_true _ ▸ k
      obtain ⟨mem, first, best⟩ := ih c (List.pairwise_cons.2 ⟨fun d m => fromC d (List.mem_cons_of_mem _ m), rest'⟩)
      have onX : Beats better before c x := .inr ⟨k, fromC x List.mem_cons_self⟩
      refine ⟨List.cons_subset_cons c (List.subset_cons_self x cs) mem, first, fun d m => ?_⟩
      rcases List.mem_cons.1 m with rfl | m
      · exact first.elim (fun e => by rw [e]; exact onX) fun e => .inl (h.beats_of_better e onX)
      · exact best d m

theorem firstBest_some {α : Type} {better : α → α → Bool} {before : α → α → Prop} (h : Ranks better) (refl : ∀ a, before a a)
    {as : List α} (ordered : as.Pairwise before) {b : α} (k : firstBest better as = some b) :
    b ∈ as ∧ ∀ d ∈ as, Beats better before b d := by
  cases as with
  | nil => cases k
  | cons c cs =>
    obtain rfl := Option.some.inj k
    obtain ⟨mem, first, best⟩ := foldl_better_spec h refl cs c ordered
    refine ⟨mem, fun d m => ?_⟩
    rcases List.mem_cons.1 m with rfl | m
    · exact first.elim (fun e => by rw [e]; exact .inr ⟨h.irrefl _, refl _⟩) .inl
    · exact best d m

theorem firstBest_eq_none_iff {α : Type} (better : α → α → Bool) (as : List α) : firstBest better as = none ↔ as = [] := by
  cases as <;> simp [firstBest]

/-! Orders chosen from the slots of the Order Table (R157, R178). -/

/-- The orders in the slots that pass a test, in ascending slot order. -/
def ordersWhere (ok : OrderNo → Order → Bool) (p : Part) : List (OrderNo × Order) :=
  (List.finRange 32).filterMap fun o => ((p.order o).filter (ok o)).map fun x => (o, x)

theorem mem_ordersWhere_iff {ok : OrderNo → Order → Bool} {p : Part} {o : OrderNo} {x : Order} :
    (o, x) ∈ ordersWhere ok p ↔ p.order o = some x ∧ ok o x = true := by
  simp [ordersWhere, Option.filter_eq_some_iff]

theorem ordersWhere_ordered (ok : OrderNo → Order → Bool) (p : Part) : (ordersWhere ok p).Pairwise fun a b => a.1 ≤ b.1 := by
  refine List.Pairwise.filterMap _ (fun o o' (h : o ≤ o') a ha b hb => ?_) (List.pairwise_le_finRange 32)
  simp only [Option.map_eq_some_iff] at ha hb
  obtain ⟨_, _, rfl⟩ := ha
  obtain ⟨_, _, rfl⟩ := hb
  exact h

/-- The search of the Order Table, as the model writes it: the slot kept, its order read again. -/
def searchOrders (ok : OrderNo → Order → Bool) (better : Order → Order → Bool) (p : Part) (best : Option OrderNo) (o : OrderNo) :
    Option OrderNo :=
  match p.order o with
  | none => best
  | some x =>
    if ok o x then
      match best with
      | none => some o
      | some b =>
        match p.order b with
        | none => some o
        | some y => if better x y then some o else some b
    else best

theorem foldl_searchOrders (ok : OrderNo → Order → Bool) (better : Order → Order → Bool) (p : Part) (os : List OrderNo)
    (b : OrderNo) (y : Order) (hb : p.order b = some y) :
    os.foldl (searchOrders ok better p) (some b) =
      some ((os.filterMap fun o => ((p.order o).filter (ok o)).map fun x => (o, x)).foldl
        (fun best d => if better d.2 best.2 then d else best) (b, y)).1 := by
  induction os generalizing b y with
  | nil => rfl
  | cons o os ih =>
    rw [List.foldl_cons, List.filterMap_cons]
    cases h : p.order o with
    | none => simp [searchOrders, h, ih b y hb]
    | some x =>
      by_cases k : ok o x = true
      · by_cases g : better x y = true
        · simp [searchOrders, h, hb, k, g, Option.filter, ih o x h]
        · simp [searchOrders, h, hb, k, g, Option.filter, ih b y hb]
      · simp [searchOrders, h, k, Option.filter, ih b y hb]

theorem searchOrders_eq (ok : OrderNo → Order → Bool) (better : Order → Order → Bool) (p : Part) (os : List OrderNo) :
    os.foldl (searchOrders ok better p) none =
      (firstBest (fun a b => better a.2 b.2) (os.filterMap fun o => ((p.order o).filter (ok o)).map fun x => (o, x))).map (·.1) := by
  induction os with
  | nil => rfl
  | cons o os ih =>
    rw [List.foldl_cons, List.filterMap_cons]
    cases h : p.order o with
    | none => simp [searchOrders, h, ih]
    | some x =>
      by_cases k : ok o x = true
      · simp [searchOrders, h, k, Option.filter, firstBest, foldl_searchOrders ok better p os o x h]
      · simp [searchOrders, h, k, Option.filter, ih]

/-- The order found passes the test, and beats every order that does. -/
theorem searchOrders_some {ok : OrderNo → Order → Bool} {better : Order → Order → Bool} {p : Part} (ranks : Ranks better)
    {o : OrderNo} (h : (List.finRange 32).foldl (searchOrders ok better p) none = some o) :
    ∃ r, p.order o = some r ∧ ok o r = true ∧ ∀ (q : OrderNo) (x : Order), p.order q = some x → ok q x = true →
      better r x = true ∨ (better x r = false ∧ o ≤ q) := by
  rw [searchOrders_eq, Option.map_eq_some_iff] at h
  obtain ⟨⟨o', r⟩, h, rfl⟩ := h
  obtain ⟨mem, best⟩ := firstBest_some (better := fun a b : OrderNo × Order => better a.2 b.2)
    ⟨fun a b => ranks.asymm _ _, fun a b c => ranks.between _ _ _⟩ (fun a => le_refl a.1) (ordersWhere_ordered ok p) h
  obtain ⟨hr, hok⟩ := mem_ordersWhere_iff.1 mem
  exact ⟨r, hr, hok, fun q x hq hx => best (q, x) (mem_ordersWhere_iff.2 ⟨hq, hx⟩)⟩

theorem searchOrders_none {ok : OrderNo → Order → Bool} {better : Order → Order → Bool} {p : Part}
    (h : (List.finRange 32).foldl (searchOrders ok better p) none = none) (q : OrderNo) (x : Order) (hq : p.order q = some x) :
    ok q x = false := by
  rw [searchOrders_eq, Option.map_eq_none_iff, firstBest_eq_none_iff] at h
  cases k : ok q x with
  | false => rfl
  | true => exact absurd h (List.ne_nil_of_mem (mem_ordersWhere_iff.2 ⟨hq, k⟩))

/-- Preferred for an opening (R178). -/
def opensBefore (x y : Order) : Bool := y.priority < x.priority || (y.priority = x.priority && x.seq < y.seq)

theorem opensBefore_ranks : Ranks opensBefore := by
  constructor <;> simp only [opensBefore, Bool.or_eq_true, Bool.and_eq_true, decide_eq_true_eq, Bool.or_eq_false_iff,
    Bool.and_eq_false_iff, decide_eq_false_iff_not] <;> omega

theorem higherPriority_ranks : Ranks fun x y : Order => decide (y.priority < x.priority) := by
  constructor <;> simp only [decide_eq_true_eq, decide_eq_false_iff_not] <;> omega

theorem openChoice_eq (p : Part) : openChoice p = (List.finRange 32).foldl (searchOrders (fun _ x => mayOpen x) opensBefore p) none := rfl

theorem reserveChoice_eq (y : Piece) (p : Part) : reserveChoice y p =
    (List.finRange 32).foldl (searchOrders (fun o x => canReserve o x y p) (fun x y => decide (y.priority < x.priority)) p) none := by
  unfold reserveChoice searchOrders
  simp only [decide_eq_true_eq] <;> rfl

theorem mayOpen_iff (x : Order) : mayOpen x = true ↔ x.state = .active ∧ x.opened < x.ordered := by simp [mayOpen]

theorem openChoice_some {p : Part} {o : OrderNo} (h : openChoice p = some o) :
    ∃ r, p.order o = some r ∧ r.state = .active ∧ r.opened < r.ordered := by
  rw [openChoice_eq] at h
  obtain ⟨r, hr, ok, -⟩ := searchOrders_some opensBefore_ranks h
  exact ⟨r, hr, (mayOpen_iff r).1 ok⟩

/-- Settles O50, both searches of the Order Table being one. -/
theorem openingPrefersPriorityThenSequence : Obligations.OpeningPrefersPriorityThenSequence := by
  refine ⟨fun p => ⟨fun o h => ?_, fun h q x hq k => ?_⟩, fun y p => ?_⟩
  · rw [openChoice_eq] at h
    obtain ⟨r, hr, ok, best⟩ := searchOrders_some opensBefore_ranks h
    obtain ⟨active, opened⟩ := (mayOpen_iff r).1 ok
    refine ⟨r, hr, active, opened, fun q x hq a b => ?_⟩
    have := best q x hq ((mayOpen_iff x).2 ⟨a, b⟩)
    simp only [opensBefore, Bool.or_eq_true, Bool.and_eq_true, decide_eq_true_eq, Bool.or_eq_false_iff,
      Bool.and_eq_false_iff, decide_eq_false_iff_not, Fin.le_def] at this ⊢
    omega
  · rw [openChoice_eq] at h
    exact absurd ((searchOrders_none h q x hq).symm.trans ((mayOpen_iff x).2 k)) Bool.false_ne_true
  · intro takes
    have iff (o : OrderNo) (r : Order) : takes o r ↔ p.order o = some r ∧ canReserve o r y p = true := by
      simp [takes, canReserve, and_assoc]
    refine ⟨fun o h => ?_, fun h q x k => ?_⟩
    · rw [reserveChoice_eq] at h
      obtain ⟨r, hr, ok, best⟩ := searchOrders_some higherPriority_ranks h
      refine ⟨r, (iff o r).2 ⟨hr, ok⟩, fun q x k => ?_⟩
      obtain ⟨hq, hx⟩ := (iff q x).1 k
      have := best q x hq hx
      simp only [decide_eq_true_eq, decide_eq_false_iff_not, Fin.le_def] at this ⊢
      omega
    · rw [reserveChoice_eq] at h
      obtain ⟨hq, hx⟩ := (iff q x).1 k
      exact absurd ((searchOrders_none h q x hq).symm.trans hx) Bool.false_ne_true

end Sys2Proof.Machine

/-! PROOFS. The laws of orders and bays (8.5, 8.6, 9.3): the operations that open, dismiss, complete, cancel and retire. -/

namespace Sys2Proof.Machine

open Sys2Proof

/-! The laws order by order. -/

/-- What the laws say of one slot of the Order Table, n bays holding a bundle of its order. -/
structure Standing (x : Option Order) (n : Nat) : Prop where
  counts : ∀ r, x = some r → r.retired ≤ r.opened ∧ r.opened ≤ r.ordered ∧ n = r.opened - r.retired
  empty : x = none → n = 0
  cancelled : ∀ r, x = some r → r.state = .cancelled → n = 0
  complete : ∀ r, x = some r → r.state = .complete → r.retired = r.ordered

theorem Standing.of_some {r : Order} {n : Nat} (retired : r.retired ≤ r.opened) (opened : r.opened ≤ r.ordered)
    (bays : n = r.opened - r.retired) (cancelled : r.state = .cancelled → n = 0) (complete : r.state = .complete → r.retired = r.ordered) :
    Standing (some r) n :=
  ⟨fun _ h => Option.some.inj h ▸ ⟨retired, opened, bays⟩, fun h => (Option.some_ne_none _ h).elim,
    fun _ h => Option.some.inj h ▸ cancelled, fun _ h => Option.some.inj h ▸ complete⟩

theorem orderLaws_iff (p : Part) : OrderLaws p ↔
    (∀ o, Standing (p.order o) (baysOf o p).length) ∧ ∀ b, (p.bay b).state = .idle → (p.bay b).bundle = none := by
  constructor
  · intro w
    refine ⟨fun o => ⟨w.counts o, fun h => ?_, fun r h k => ?_, w.complete o⟩, w.idle⟩
    · rw [w.emptySlots o h]; rfl
    · rw [w.cancelled o r h k]; rfl
  · intro ⟨w, idle⟩
    exact ⟨fun o => (w o).counts, fun o h => List.eq_nil_of_length_eq_zero ((w o).empty h), idle,
      fun o r h k => List.eq_nil_of_length_eq_zero ((w o).cancelled r h k), fun o => (w o).complete⟩

theorem OrderLaws.standing {p : Part} (w : OrderLaws p) (o : OrderNo) : Standing (p.order o) (baysOf o p).length :=
  ((orderLaws_iff p).1 w).1 o

theorem order_setOrder (o : OrderNo) (x : Option Order) (p : Part) (o' : OrderNo) :
    (p.setOrder o x).order o' = if o = o' then x else p.order o' := by
  split
  · next h => subst h; simp
  · next h => exact Part.order_setOrder_other _ _ _ _ h

theorem baysOf_eq (o : OrderNo) (p : Part) : baysOf o p = (List.finRange 8).filter fun b => (p.bay b).owner == some o := by
  simp only [baysOf, holdsOrder_iff]

theorem mem_baysOf_iff {o : OrderNo} {p : Part} {b : BayNo} : b ∈ baysOf o p ↔ (p.bay b).owner = some o := by simp [baysOf_eq]

theorem baysOf_of_bas {p q : Part} (h : q.bas = p.bas) (o : OrderNo) : baysOf o q = baysOf o p :=
  baysOf_congr (fun b => by simp only [Part.bay, h]) o

theorem baysOf_setBay_same (b : BayNo) {x : Bay} {p : Part} {o : OrderNo} (h : x.owner ≠ some o) (k : (p.bay b).owner ≠ some o) :
    baysOf o (p.setBay b x) = baysOf o p := by
  simp only [baysOf_eq, bay_setBay]
  refine List.filter_congr fun c _ => ?_
  split
  · next e => subst e; simp [h, k]
  · rfl

theorem length_baysOf_leaves (b : BayNo) {x : Bay} {p : Part} {o : OrderNo} (h : x.owner ≠ some o) (k : (p.bay b).owner = some o) :
    (baysOf o p).length = (baysOf o (p.setBay b x)).length + 1 := by
  simp only [baysOf_eq]
  refine length_filter_finRange b (by simp [k]) (by simp [h]) fun c e => ?_
  rw [Part.bay_setBay_other _ _ _ _ e.symm]

theorem length_baysOf_joins (b : BayNo) {x : Bay} {p : Part} {o : OrderNo} (h : x.owner = some o) (k : (p.bay b).owner ≠ some o) :
    (baysOf o (p.setBay b x)).length = (baysOf o p).length + 1 := by
  simp only [baysOf_eq]
  refine length_filter_finRange b (by simp [h]) (by simp [k]) fun c e => ?_
  rw [Part.bay_setBay_other _ _ _ _ e.symm]

/-- One order changed, the bays with it as they were. -/
theorem OrderLaws.setOrder {p : Part} (w : OrderLaws p) {o : OrderNo} {x : Option Order} (h : Standing x (baysOf o p).length) :
    OrderLaws (p.setOrder o x) := by
  obtain ⟨standing, idle⟩ := (orderLaws_iff p).1 w
  refine (orderLaws_iff _).2 ⟨fun o' => ?_, idle⟩
  rw [order_setOrder, baysOf_of_bas (q := p.setOrder o x) rfl]
  split
  · next e => exact e ▸ h
  · exact standing o'

/-- A bay empties, its order's books changed with it. -/
theorem OrderLaws.bundleLeaves {p : Part} (w : OrderLaws p) {b : BayNo} {o : OrderNo} {x : Bay} {y : Option Order}
    (owner : (p.bay b).owner = some o) (empty : x.bundle = none)
    (h : ∀ n, (baysOf o p).length = n + 1 → Standing y n) : OrderLaws ((p.setBay b x).setOrder o y) := by
  obtain ⟨standing, idle⟩ := (orderLaws_iff p).1 w
  have none_of (o' : OrderNo) : x.owner ≠ some o' := by simp [Bay.owner, empty]
  have bays (o' : OrderNo) : baysOf o' ((p.setBay b x).setOrder o y) = baysOf o' (p.setBay b x) := baysOf_of_bas rfl o'
  refine (orderLaws_iff _).2 ⟨fun o' => ?_, fun c => ?_⟩
  · rw [order_setOrder, bays]
    split
    · next e => exact e ▸ h _ (length_baysOf_leaves b (none_of o) owner)
    · next e =>
      rw [baysOf_setBay_same b (none_of o') (by rw [owner]; exact fun k => e (Option.some.inj k))]
      exact standing o'
  · rw [Part.bay_setOrder, bay_setBay]
    split
    · exact fun _ => empty
    · exact idle c

/-- A bay without a bundle takes one, its order's books changed with it. -/
theorem OrderLaws.bundleJoins {p : Part} (w : OrderLaws p) {b : BayNo} {o : OrderNo} {x : Bay} {y : Option Order}
    (owner : x.owner = some o) (opened : x.state ≠ .idle) (empty : (p.bay b).bundle = none)
    (h : Standing y ((baysOf o p).length + 1)) : OrderLaws ((p.setOrder o y).setBay b x) := by
  obtain ⟨standing, idle⟩ := (orderLaws_iff p).1 w
  have none_of (o' : OrderNo) : (p.bay b).owner ≠ some o' := by simp [Bay.owner, empty]
  have bays (o' : OrderNo) : baysOf o' ((p.setOrder o y).setBay b x) = baysOf o' (p.setBay b x) := baysOf_of_bas rfl o'
  refine (orderLaws_iff _).2 ⟨fun o' => ?_, fun c => ?_⟩
  · rw [Part.order_setBay, order_setOrder, bays]
    split
    · next e => subst e; rw [length_baysOf_joins b owner (none_of o)]; exact h
    · next e =>
      rw [baysOf_setBay_same b (by rw [owner]; exact fun k => e (Option.some.inj k)) (none_of o')]
      exact standing o'
  · rw [bay_setBay]
    split
    · exact fun k => absurd k opened
    · exact idle c

/-! Openings and dismissals (R178, R189). -/

theorem KeepsLaws.of_order {p q : Part} (rst : q.rst = p.rst) (cpl : q.cpl = p.cpl) (h : OrderLaws p → OrderLaws q) : KeepsLaws p q :=
  ⟨StoreLaws.congr rst (by rw [cpl]), h⟩

theorem KeepsLaws.foldl {α : Type} {f : Part → α → Part} (step : ∀ p a, KeepsLaws p (f p a)) (as : List α) (p : Part) :
    KeepsLaws p (as.foldl f p) := foldl_within .refl .trans step as p

theorem openBundle_keepsLaws {b : BayNo} {o : OrderNo} {p : Part} (idle : (p.bay b).state = .idle) (h : openChoice p = some o) :
    KeepsLaws p (openBundle b o p) := by
  obtain ⟨r, hr, active, room⟩ := openChoice_some h
  unfold openBundle
  rw [hr]
  refine .of_order rfl rfl fun w => w.bundleJoins rfl nofun (w.idle b idle) ?_
  obtain ⟨retired, -, bays⟩ := w.counts o r hr
  exact .of_some (by dsimp only; omega) (by dsimp only; omega) (by dsimp only; omega)
    (fun k => by dsimp only at k; rw [active] at k; cases k) fun k => by dsimp only at k; rw [active] at k; cases k

theorem tryOpening_keepsLaws (p : Part) : KeepsLaws p (tryOpening p) := by
  refine .foldl (fun q b => ?_) _ p
  split
  · next h =>
    split
    · exact .refl q
    · next k => exact openBundle_keepsLaws (by simp only [Bool.and_eq_true, decide_eq_true_eq] at h; exact h.1) k
  · exact .refl q

theorem openUnlessHeld_keepsLaws (b : BayNo) (p : Part) : KeepsLaws p (openUnlessHeld b p) := by
  unfold openUnlessHeld
  split
  · exact .refl p
  · exact tryOpening_keepsLaws p

theorem dismiss_keepsLaws (b : BayNo) (p : Part) : KeepsLaws p (dismiss b p) := by
  unfold dismiss
  split
  · exact .refl p
  · next x hx =>
    refine .of_order rfl rfl fun w => w.bundleLeaves (by simp [Bay.owner, hx]) rfl fun n k => ?_
    have standing := w.standing x.slot
    rw [Part.order_setBay]
    cases hr : p.order x.slot with
    | none => rw [hr] at standing; exact absurd (standing.empty rfl) (by omega)
    | some r =>
      obtain ⟨retired, opened, bays⟩ := w.counts _ r hr
      refine .of_some ?_ ?_ ?_ (fun c => ?_) (fun c => w.complete _ r hr c) <;> dsimp only at *
      · omega
      · omega
      · omega
      · have := w.cancelled _ r hr c
        rw [this] at k
        cases k

/-! Order states (R166 to R168). -/

theorem setOrderState_keepsLaws {o : OrderNo} {s : OrderState} {p : Part}
    (h : ∀ r, p.order o = some r → (s = .cancelled → baysOf o p = []) ∧ (s = .complete → r.retired = r.ordered)) :
    KeepsLaws p (setOrderState o s p) := by
  refine .of_order rfl rfl fun w => w.setOrder ?_
  cases hr : p.order o with
  | none => have := w.standing o; rwa [hr] at this
  | some r =>
    obtain ⟨retired, opened, bays⟩ := w.counts o r hr
    obtain ⟨cancelled, complete⟩ := h r hr
    exact .of_some retired opened bays (fun k => by rw [cancelled k]; rfl) complete

theorem completeIfDone_keepsLaws (o : OrderNo) (p : Part) : KeepsLaws p (completeIfDone o p).2 := by
  unfold completeIfDone
  split
  · exact .refl p
  · next x hx =>
    split
    · next h =>
      simp only [Bool.and_eq_true, beq_iff_eq] at h
      exact (setOrderState_keepsLaws fun r hr => by
        rw [hx] at hr
        obtain rfl := Option.some.inj hr
        exact ⟨nofun, fun _ => h.2⟩).trans (bulkRelease_lawful o _).keepsLaws
    · exact .refl p

theorem settleCancelled_keepsLaws (o : OrderNo) (p : Part) : KeepsLaws p (settleCancelled o p) := by
  unfold settleCancelled
  split
  · exact .refl p
  · next x hx =>
    split
    · next h =>
      simp only [Bool.and_eq_true, decide_eq_true_eq, List.isEmpty_iff] at h
      have e : p.setOrder o (some { x with state := .cancelled }) = setOrderState o .cancelled p := by
        simp [setOrderState, changeOrder, hx]
      rw [e]
      exact setOrderState_keepsLaws fun _ _ => ⟨fun _ => h.2, nofun⟩
    · exact .refl p

theorem closeForCancel_keepsLaws (p : Part) (b : BayNo) : KeepsLaws p (closeForCancel p b) := by
  unfold closeForCancel
  split
  · split
    · exact (dismiss_keepsLaws b p).trans (openUnlessHeld_keepsLaws b _)
    · exact (forceClose_kept b p).keepsLaws
  · exact .refl p

theorem cancelOrder_keepsLaws (o : OrderNo) (p : Part) : KeepsLaws p (cancelOrder o p).2 := by
  have released : KeepsLaws p (bulkRelease o (setOrderState o .cancelling p)).2 :=
    (setOrderState_keepsLaws (s := .cancelling) fun _ _ => ⟨nofun, nofun⟩).trans (bulkRelease_lawful o _).keepsLaws
  exact (released.trans (.foldl closeForCancel_keepsLaws _ _)).trans (settleCancelled_keepsLaws o _)

theorem raiseOrdsta_kept (o : OrderNo) (before : Option OrderState) (p : Part) : Kept p (raiseOrdsta o before p) := by
  unfold raiseOrdsta
  split
  · exact .refl p
  · split
    · exact .refl p
    · exact raise_kept _ p

/-! The retirement of a bundle (R164, R200). -/

theorem emptyBay_bundles {p q : Part} (h : SameBundles p q) (b : BayNo) : SameBundles (emptyBay b p) (emptyBay b q) := by
  refine ⟨h.books, fun c => ?_, fun c => ?_⟩ <;> unfold emptyBay <;> rw [bay_setBay, bay_setBay] <;> split
  · rfl
  · exact h.owner c
  · exact id
  · exact h.idle c

/-- Between the books of a retirement and the bay's emptying the laws hold as if the bay were empty. -/
theorem bookRetirement_laws {b : BayNo} {u : Bundle} {p : Part} (hu : (p.bay b).bundle = some u) (w : OrderLaws p) :
    OrderLaws (emptyBay b (bookRetirement u p)) := by
  refine w.bundleLeaves (o := u.slot) (by simp [Bay.owner, hu]) rfl fun n k => ?_
  have standing := w.standing u.slot
  cases hr : p.order u.slot with
  | none => rw [hr] at standing; exact absurd (standing.empty rfl) (by omega)
  | some r =>
    obtain ⟨retired, opened, bays⟩ := w.counts _ r hr
    refine .of_some ?_ ?_ ?_ (fun c => ?_) (fun c => ?_) <;> dsimp only at *
    · omega
    · omega
    · omega
    · have := w.cancelled _ r hr c
      rw [this] at k
      cases k
    · have := w.complete _ r hr c
      omega

theorem completeIfDone_emptied {b : BayNo} (o : OrderNo) {p : Part} (w : OrderLaws (emptyBay b p)) :
    OrderLaws (emptyBay b (completeIfDone o p).2) := by
  unfold completeIfDone
  split
  · exact w
  · next x hx =>
    split
    · next h =>
      simp only [Bool.and_eq_true, beq_iff_eq] at h
      refine (emptyBay_bundles (bulkRelease_lawful o _).bundles b).orderLaws ?_
      refine (setOrderState_keepsLaws (p := emptyBay b p) (s := .complete) fun r hr => ⟨nofun, fun _ => ?_⟩).order w
      rw [show (emptyBay b p).order o = p.order o from rfl, hx] at hr
      obtain rfl := Option.some.inj hr
      exact h.2
    · exact w

theorem retireBundle_keepsLaws {b : BayNo} {u : Bundle} {p : Part} (hu : (p.bay b).bundle = some u) :
    KeepsLaws p (retireBundle b u p).2 := by
  have emptied : KeepsLaws p (emptyBay b (completeIfDone u.slot (bookRetirement u p)).2) :=
    ⟨fun w => StoreLaws.congr (p := (completeIfDone u.slot (bookRetirement u p)).2) rfl rfl
        ((completeIfDone_keepsLaws u.slot (bookRetirement u p)).store (StoreLaws.congr (p := p) rfl rfl w)),
      fun w => completeIfDone_emptied u.slot (bookRetirement_laws hu w)⟩
  exact (emptied.trans (settleCancelled_keepsLaws u.slot _)).trans (openUnlessHeld_keepsLaws b _)

end Sys2Proof.Machine

/-! PROOFS. The laws of records and bundles: the requests' bodies, the links, and every command. -/

namespace Sys2Proof.Machine

open Sys2Proof

/-! Requests of the Record Store and the Zone Tracker (R25, R28 to R30, R55). -/

theorem removeByState_lawful (s : Strip) (p : Part) : Lawful p (removeByState s p).2 := by
  unfold removeByState
  split
  · exact ((leavePlanner_kept s.tag p).trans (cancel_kept _ _)).lawful
  · exact (cancel_kept _ p).lawful
  · exact (cancel_kept _ p).lawful
  · exact (cancel_kept _ p).lawful
  · exact endPieces_lawful _ _ _ s p
  · exact (cancelSaw_kept s.tag p).lawful.trans (endPieces_lawful _ _ _ s _)
  · exact .refl p
  · exact .refl p
  · exact .refl p

theorem removeStrip_lawful (s : Strip) (p : Part) : Lawful p (removeStrip s p).2 :=
  thenStep_lawful (removeByState_lawful s p) fun q =>
    (((removeTag_kept .A s.tag q).trans (removeTag_kept .B s.tag _)).trans (leaveCutList_kept s.tag _)).lawful.trans
      (retire_lawful _ _ _)

theorem removePiece_lawful {x : Piece} {p : Part} (h : StoreLaws p → Binds x.tag x.ctx p) : Lawful p (removePiece x p).2 := by
  have left (q : Part) : Lawful q (removePieceEntry x q) := by
    unfold removePieceEntry
    split
    · exact .refl q
    · exact (removeTag_kept _ _ q).lawful
  unfold removePiece
  refine thenStep_lawful ?_ fun q => retire_lawful _ _ q
  have undone := (undoShare_lawful h).trans (left _)
  split
  · exact undone.trans (voidPlace_lawful _ _ _ _ _)
  · exact undone

theorem serveRecrd_lawful (tag : Nat) (p : Part) : Lawful p (serveRecrd tag p).2 := by
  unfold serveRecrd
  split <;> next h => exact lookup_lawful_of h

theorem serveRecret_lawful (tag : Nat) (p : Part) : Lawful p (serveRecret tag p).2 := by
  unfold serveRecret
  split
  · next h => exact (lookup_lawful_of h).trans (removeStrip_lawful _ _)
  · next h => exact (lookup_lawful_of h).trans (removePiece_lawful (lookup_piece_bound h))
  · next h => exact lookup_lawful_of h
  · next h => exact lookup_lawful_of h
  · next h => exact lookup_lawful_of h

theorem serveErrrd_kept (p : Part) : Kept p (serveErrrd p).2 :=
  ⟨⟨fun _ => ⟨rfl, rfl, rfl⟩, rfl, fun _ => rfl⟩, .of_blocks rfl rfl⟩

theorem serveGeold_kept (g : Geometry) (p : Part) : Kept p (serveGeold g p).2 := by
  unfold serveGeold
  split
  · exact .refl p
  · split
    · exact .refl p
    · exact (reevaluate_kept _ _).after_blocks rfl rfl rfl rfl

theorem serveZonrd_part (zone list first : Nat) (p : Part) : (serveZonrd zone list first p).2 = p := by
  unfold serveZonrd
  split
  · rfl
  · split
    · rfl
    · split <;> rfl

/-! Requests of the Cut Planner and of the end-matcher (chapters 3, 4 and 7). -/

theorem setCtx_kept (c : CtxNo) {x : Context} {p : Part} (h : x.refs = (p.ctx c).refs) : Kept p (p.setCtx c x) := by
  refine ⟨⟨fun _ => ⟨rfl, rfl, rfl⟩, rfl, fun d => ?_⟩, .of_blocks rfl rfl⟩
  by_cases e : c = d
  · subst e; rw [Part.ctx_setCtx_same]; exact h
  · rw [Part.ctx_setCtx_other _ _ _ _ e]

theorem loadProfile_kept (c : CtxNo) (f : Profile) (p : Part) : Kept p (loadProfile c f p) :=
  (setCtx_kept c (x := { p.ctx c with profile := some f }) rfl).trans (reevaluate_kept false _)

theorem serveCtxld_kept (slot : Nat) (f : Profile) (p : Part) : Kept p (serveCtxld slot f p).2 := by
  unfold serveCtxld
  dsimp only
  split
  · exact .refl p
  · split
    · exact .refl p
    · split
      · exact .refl p
      · exact loadProfile_kept _ f p

theorem serveCtxsel_kept (slot : Nat) (p : Part) : Kept p (serveCtxsel slot p).2 := by
  unfold serveCtxsel
  dsimp only
  split
  · exact .refl p
  · split
    · exact .refl p
    · exact (reevaluate_kept _ _).after_blocks rfl rfl rfl rfl

theorem serveGrdld_kept (species : Nat) (limits : List GradeLimit) (p : Part) : Kept p (serveGrdld species limits p).2 := by
  unfold serveGrdld
  split
  · exact .refl p
  · split
    · exact .refl p
    · exact .of_blocks rfl rfl rfl rfl

theorem serveRun_kept (b : Bool) (p : Part) : Kept p (serveRun b p).2 := (reevaluate_kept _ _).after_blocks rfl rfl rfl rfl

theorem readEntry_lawful (acc : Bool × Part) (e : Entry) : Lawful acc.2 (readEntry acc e).2 := by
  unfold readEntry
  split
  · exact .refl _
  · split
    · exact .refl _
    · split <;> next h => exact lookup_lawful_of h

theorem serveMapnext_lawful (p : Part) : Lawful p (serveMapnext p).2 := by
  have read : Lawful p ((p.queue .B).foldl readEntry (false, p)).2 := Lawful.foldl_snd readEntry_lawful _ (false, p)
  unfold serveMapnext
  dsimp only
  split
  · exact read
  · split <;> exact read

theorem acceptMap_lawful {s : Strip} (f : MapForm) {p : Part} (h : StoreLaws p → Binds s.tag s.ctx p) :
    Lawful p (acceptMap s f p).2 := by
  have written := writeStrip_lawful (s := { s with map := some ⟨f.defects, false⟩, state := .mapped }) h
  unfold acceptMap
  dsimp only
  generalize writeStrip _ p = q at written ⊢
  exact written.trans ((startPlanning_lawful _).after_blocks rfl rfl rfl rfl)

theorem postMap_lawful {s : Strip} (f : MapForm) {p : Part} (h : StoreLaws p → Binds s.tag s.ctx p) : Lawful p (postMap s f p).2 := by
  unfold postMap
  split
  · exact .refl p
  · split
    · exact .refl p
    · split
      · exact .refl p
      · split
        · exact rejectStrip_lawful _ _ (s := { s with map := some ⟨f.defects, true⟩ }) h
        · split
          · exact rejectStrip_lawful _ _ h
          · exact acceptMap_lawful f h

theorem serveMappost_lawful (f : MapForm) (p : Part) : Lawful p (serveMappost f p).2 := by
  unfold serveMappost
  split
  · next h => exact lookup_lawful_of h
  · next h => exact lookup_lawful_of h
  · next h => exact lookup_lawful_of h
  · next h => split <;> exact lookup_lawful_of h
  · next h =>
    split
    · exact (lookup_lawful_of h).trans (postMap_lawful f (lookup_strip_bound h))
    · exact lookup_lawful_of h

theorem reservePiece_bundles (x : Piece) (p : Part) : SameBundles p (reservePiece x p) := by
  unfold reservePiece
  split
  · exact .refl p
  · split
    · exact .refl p
    · exact (changeOrder_kept _ (fun _ => by rfl) p).bundles.trans (writeRecord_bundles _ _ _)

theorem degrade_lawful (r : EndResult) {x : Piece} {p : Part} (h : StoreLaws p → Binds x.tag x.ctx p) : Lawful p (degrade r x p) := by
  unfold degrade
  dsimp only
  split
  · exact writePiece_lawful (x := { x with downgraded := true }) h
  · generalize hy : ({ x with grade := gradeAfter r x.grade, downgraded := true, reserved := none } : Piece) = y
    have named : y.tag = x.tag ∧ y.ctx = x.ctx := by subst hy; exact ⟨rfl, rfl⟩
    have bound : StoreLaws p → Binds y.tag y.ctx (release x p) := fun w => by rw [named.1, named.2]; exact release_bound (h w)
    have regraded : Lawful p (writePiece y (release x p)) :=
      ⟨fun w => (writePiece_lawful fun _ => bound w).store ((release_lawful h).store w),
        (release_bundles x p).trans (writeRecord_bundles _ _ _)⟩
    split
    · exact regraded
    · exact ⟨fun w => (reservePiece_lawful fun _ => (bound w).of_writePiece (bound w)).store (regraded.store w),
        regraded.bundles.trans (reservePiece_bundles y _)⟩

theorem postOutcome_lawful (r : EndResult) {x : Piece} {p : Part} (h : StoreLaws p → Binds x.tag x.ctx p) :
    Lawful p (postOutcome r x p).2 := by
  have degraded : Lawful p (if x.downgraded then ((⟨.wrongState, outcomeItems (some x)⟩, p) : Reply × Part)
      else if r = .ok then (⟨.done, outcomeItems (some x)⟩, p)
      else (⟨.done, outcomeItems (pieceAt x.tag (degrade r x p))⟩, degrade r x p)).2 := by
    split
    · exact .refl p
    · split
      · exact .refl p
      · exact degrade_lawful r h
  unfold postOutcome
  split
  · exact .refl p
  · exact .refl p
  · dsimp only
    split
    · exact .refl p
    · exact (flagInspect_kept x p).lawful
  · exact .refl p
  · exact degraded
  · exact degraded

theorem serveOutcome_lawful (tag result : Nat) (p : Part) : Lawful p (serveOutcome tag result p).2 := by
  unfold serveOutcome
  split
  · exact .refl p
  · split
    · next h => exact lookup_lawful_of h
    · next h => exact lookup_lawful_of h
    · next h => exact lookup_lawful_of h
    · next h => exact lookup_lawful_of h
    · next h => exact (lookup_lawful_of h).trans (postOutcome_lawful _ (lookup_piece_bound h))

/-! Requests of the Order Table (chapter 8). -/

theorem emptySlot_order {p : Part} {o : OrderNo} (h : emptySlot p = some o) : p.order o = none := by
  simpa using List.find?_some h

theorem admitOrder_keepsLaws {o : OrderNo} (f : OrderForm) {p : Part} (h : p.order o = none) : KeepsLaws p (admitOrder o f p) := by
  have placed : KeepsLaws p (({ p with ort.seq := nextSeq p.ort.seq } : Part).setOrder o (some (newOrder f (nextSeq p.ort.seq)))) := by
    refine .of_order rfl rfl fun w => ?_
    have standing : Standing (some (newOrder f (nextSeq p.ort.seq))) (baysOf o p).length := by
      rw [w.emptySlots o h]
      exact .of_some (le_refl _) (Nat.zero_le _) rfl nofun nofun
    exact SameBundles.orderLaws (p := p.setOrder o (some (newOrder f (nextSeq p.ort.seq)))) ⟨fun _ => rfl, fun _ => rfl, fun _ => id⟩
      (w.setOrder standing)
  exact (placed.trans (tryOpening_keepsLaws _)).trans (raiseOrdsta_kept o none _).keepsLaws

theorem serveOrdadm_keepsLaws (f : OrderForm) (p : Part) : KeepsLaws p (serveOrdadm f p).2 := by
  unfold serveOrdadm
  split
  · exact .refl p
  · split
    · exact .refl p
    · split
      · exact .refl p
      · next o h =>
        have e := emptySlot_order h
        dsimp only
        exact admitOrder_keepsLaws (o := o) f e

/-- Bundles ordered changed, not below bundles opened, of an order that is not COMPLETE with fewer retired. -/
theorem reorder_keepsLaws {o : OrderNo} {x : Order} {n : Nat} {p : Part} (hx : p.order o = some x) (room : x.opened ≤ n)
    (f : Order → Order) (hf : f x = { x with ordered := n, state := (f x).state }) (cancelled : (f x).state = .cancelled → x.state = .cancelled)
    (complete : (f x).state = .complete → x.retired = n) : KeepsLaws p (changeOrder o f p) := by
  refine .of_order rfl rfl fun w => w.setOrder ?_
  obtain ⟨retired, opened, bays⟩ := w.counts o x hx
  rw [hx, Option.map_some, hf]
  exact .of_some retired room bays (fun k => by rw [w.cancelled o x hx (cancelled k)]; rfl) complete

theorem setOrder_setOrder (o : OrderNo) (x y : Option Order) (p : Part) : (p.setOrder o x).setOrder o y = p.setOrder o y := by
  simp [Part.setOrder]

theorem amend_keepsLaws {o : OrderNo} {x : Order} {n : Nat} {p : Part} (hx : p.order o = some x) (room : x.opened ≤ n)
    (going : x.state = .active ∨ x.state = .complete) : KeepsLaws p (amend o x n p).2 := by
  unfold amend
  dsimp only
  rcases going with active | complete
  · rw [active]
    exact (reorder_keepsLaws hx room (fun y => { y with ordered := n }) rfl id fun k => by
      dsimp only at k; rw [active] at k; cases k).trans (completeIfDone_keepsLaws o _)
  · rw [complete]
    dsimp only
    have merged : setOrderState o .active (changeOrder o (fun y => { y with ordered := n }) p) =
        changeOrder o (fun y => { y with ordered := n, state := .active }) p := by
      simp [setOrderState, changeOrder, hx, setOrder_setOrder]
    split
    · rw [merged]
      exact reorder_keepsLaws hx room _ rfl nofun nofun
    · next full =>
      refine .of_order rfl rfl fun w => ?_
      have all := w.complete o x hx complete
      obtain ⟨retired, opened, -⟩ := w.counts o x hx
      exact (reorder_keepsLaws hx room (fun y => { y with ordered := n }) rfl id fun _ => by omega).order w

end Sys2Proof.Machine

/-! PROOFS. The laws of records and bundles kept by the requests on orders and bays, by the links, and so by every command. -/

namespace Sys2Proof.Machine

open Sys2Proof

theorem openIfActive_keepsLaws (o : OrderNo) (p : Part) : KeepsLaws p (openIfActive o p) := by
  unfold openIfActive
  split
  · exact tryOpening_keepsLaws p
  · exact .refl p

theorem serveOrdamd_keepsLaws (number n : Nat) (p : Part) : KeepsLaws p (serveOrdamd number n p).2 := by
  unfold serveOrdamd
  split
  · exact .refl p
  · split
    · exact .refl p
    · split
      · exact .refl p
      · next x hx =>
        split
        · exact .refl p
        · next going =>
          split
          · exact .refl p
          · next room =>
            dsimp only
            have going : x.state = .active ∨ x.state = .complete := by
              cases h : x.state <;> simp [h] at going ⊢
            exact ((amend_keepsLaws hx (by omega) going).trans (openIfActive_keepsLaws _ _)).trans (raiseOrdsta_kept _ _ _).keepsLaws

theorem serveOrdcan_keepsLaws (number : Nat) (p : Part) : KeepsLaws p (serveOrdcan number p).2 := by
  unfold serveOrdcan
  split
  · exact .refl p
  · split
    · exact .refl p
    · dsimp only
      exact (cancelOrder_keepsLaws _ p).trans (raiseOrdsta_kept _ _ _).keepsLaws

theorem removeOrder_keepsLaws {o : OrderNo} {x : Order} {p : Part} (hx : p.order o = some x)
    (ended : x.state = .complete ∨ x.state = .cancelled) : KeepsLaws p (removeOrder o x p) := by
  have removed : KeepsLaws p (p.setOrder o none) := .of_order rfl rfl fun w => w.setOrder <| by
    have none_left : (baysOf o p).length = 0 := by
      rcases ended with complete | cancelled
      · have := w.complete o x hx complete
        obtain ⟨_, _, _⟩ := w.counts o x hx
        omega
      · rw [w.cancelled o x hx cancelled]; rfl
    exact ⟨nofun, fun _ => none_left, nofun, nofun⟩
  exact removed.trans (raise_kept _ _).keepsLaws

theorem serveOrdrem_keepsLaws (number : Nat) (p : Part) : KeepsLaws p (serveOrdrem number p).2 := by
  unfold serveOrdrem
  split
  · exact .refl p
  · split
    · exact .refl p
    · next x hx =>
      split
      · exact .refl p
      · next ended => exact removeOrder_keepsLaws hx (by cases h : x.state <;> simp [h] at ended ⊢)

theorem serveOrdrd_part (which value : Nat) (p : Part) : (serveOrdrd which value p).2 = p := by
  unfold serveOrdrd
  split
  · split <;> rfl
  · split
    · split
      · rfl
      · split <;> rfl
    · rfl

/-! Requests on bays (chapters 9 and 10). -/

theorem setHold_bay (l : LinkNo) (v : Bool) (x : Bay) : (setHold l v x).owner = x.owner ∧ (setHold l v x).state = x.state := by
  unfold setHold
  split <;> exact ⟨rfl, rfl⟩

theorem setHold_kept (l : LinkNo) (v : Bool) (b : BayNo) (p : Part) : Kept p (p.setBay b (setHold l v (p.bay b))) :=
  setBay_kept b (setHold_bay l v _).1 fun h => (setHold_bay l v _).2 ▸ h

theorem cancelHeldKick_lawful (b : BayNo) (acc : HoldReads × Part) (e : KickEntry) : Lawful acc.2 (cancelHeldKick b acc e).2 := by
  unfold cancelHeldKick
  split
  · exact .refl _
  · split
    · next x q h =>
      have undone := (removeKick_kept b e.tag q).trans (undoTransit_kept b x.area x.len _)
      exact ((lookup_lawful_of h).trans undone.lawful).trans (writePiece_lawful
        (x := { x with state := .unsorted, bay := none, serial := none }) (undone.bound (lookup_piece_bound (x := x) h)))
    · next h => exact lookup_lawful_of h
    · next h => exact (lookup_lawful_of h).trans (removeKick_kept b e.tag _).lawful
    · next h => exact (lookup_lawful_of h).trans (removeKick_kept b e.tag _).lawful

theorem holdBay_lawful (b : BayNo) (p : Part) : Lawful p (holdBay b p).2 := by
  have read : Lawful p ((p.kickQueue b).foldl (cancelHeldKick b) (⟨false, false⟩, p)).2 :=
    Lawful.foldl_snd (cancelHeldKick_lawful b) _ (_, p)
  unfold holdBay
  dsimp only
  split
  · exact read
  · exact read.trans (reevalClosing_kept b _).lawful

theorem serveBayhld_lawful (l : LinkNo) (bay : Nat) (p : Part) : Lawful p (serveBayhld l bay p).2 := by
  unfold serveBayhld
  split
  · exact .refl p
  · dsimp only
    split
    · exact (setHold_kept l true _ p).lawful
    · exact (setHold_kept l true _ p).lawful.trans (holdBay_lawful _ _)

theorem serveBayrel_keepsLaws (l : LinkNo) (bay : Nat) (p : Part) : KeepsLaws p (serveBayrel l bay p).2 := by
  unfold serveBayrel
  split
  · exact .refl p
  · dsimp only
    split
    · exact (setHold_kept l false _ p).keepsLaws.trans (tryOpening_keepsLaws _)
    · exact (setHold_kept l false _ p).keepsLaws

theorem serveBaycls_keepsLaws (bay : Nat) (p : Part) : KeepsLaws p (serveBaycls bay p).2 := by
  unfold serveBaycls
  split
  · exact .refl p
  · split
    · exact .refl p
    · split
      · exact .refl p
      · split
        · exact (((dismiss_keepsLaws _ p).trans (settleCancelled_keepsLaws _ _)).trans (openUnlessHeld_keepsLaws _ _)).trans
            (raiseOrdsta_kept _ _ _).keepsLaws
        · exact (forceClose_kept _ p).keepsLaws

theorem serveLblrd_part (bay : Nat) (p : Part) : (serveLblrd bay p).2 = p := by
  unfold serveLblrd
  split
  · rfl
  · split
    · rfl
    · split <;> rfl

theorem serveBdlret_keepsLaws (bay order serial : Nat) (p : Part) : KeepsLaws p (serveBdlret bay order serial p).2 := by
  unfold serveBdlret
  split
  · exact .refl p
  · split
    · exact .refl p
    · split
      · exact .refl p
      · split
        · exact .refl p
        · next hu =>
          unfold retireFull
          dsimp only
          split
          · exact .refl p
          · exact (retireBundle_keepsLaws hu).trans (raiseOrdsta_kept _ _ _).keepsLaws

/-! The links (chapter 11). -/

theorem setLink_kept (l : LinkNo) (x : LinkRec) (p : Part) : Kept p (p.setLink l x) := .of_blocks rfl rfl rfl rfl

theorem announce_kept (l : LinkNo) (p : Part) : Kept p (announce l p) := (sendNotice_after _ _ _ p).kept

theorem signalUp_kept (l : LinkNo) (p : Part) : Kept p (signalUp l p) := (setLink_kept l _ p).trans (announce_kept l _)

theorem gainSignal_kept (l : LinkNo) (p : Part) : Kept p (gainSignal l p) := by
  have gained := setLink_kept l { p.link l with signal := true } p
  unfold gainSignal
  split
  · exact .refl p
  · dsimp only
    split
    · exact gained.trans (signalUp_kept l _)
    · exact gained.trans (announce_kept l _)
    · exact gained
    · exact gained
    · exact gained
    · exact gained

theorem clearStackerHolds_keepsLaws (p : Part) : KeepsLaws p (clearStackerHolds p) := by
  have cleared : Kept p { p with bas := p.bas.map fun b => { b with staHold := false } } := by
    refine ⟨.of_blocks rfl rfl, fun _ => rfl, fun b => ?_, fun b => ?_⟩
    · simp [Part.bay, Bay.owner]
    · simp [Part.bay]
  unfold clearStackerHolds
  dsimp only
  split
  · exact cleared.keepsLaws.trans (tryOpening_keepsLaws _)
  · exact cleared.keepsLaws

theorem dropOwedReply_kept (l : LinkNo) (p : Part) : Kept p (dropOwedReply l p) := by
  unfold dropOwedReply
  split
  · exact .of_blocks rfl rfl rfl rfl
  · exact .refl p

theorem vacate_keepsLaws (l : LinkNo) (s : LinkState) (p : Part) : KeepsLaws p (vacate l s p) := by
  unfold vacate
  dsimp only
  have emptied := (setLink_kept l { p.link l with
    state := s, role := none, serial := 0, tools := [], holdTimer := none, requests := [], transmit := [] } p).trans (dropOwedReply_kept l _)
  generalize dropOwedReply l _ = q at emptied ⊢
  refine KeepsLaws.trans ?_ (reevaluate_kept false _).keepsLaws
  split
  · exact emptied.keepsLaws.trans (clearStackerHolds_keepsLaws q)
  · exact emptied.keepsLaws

theorem linkReset_keepsLaws (l : LinkNo) (p : Part) : KeepsLaws p (linkReset l p) := by
  unfold linkReset
  dsimp only
  split
  · exact (vacate_keepsLaws l .down p).trans (signalUp_kept l _).keepsLaws
  · exact vacate_keepsLaws l .down p

theorem frameError_kept (l : LinkNo) (p : Part) : Kept p (frameError l p) := setLink_kept l _ p

theorem joinRequests_kept (l : LinkNo) (w : Waiting) (p : Part) : Kept p (joinRequests l w p) := by
  unfold joinRequests
  dsimp only
  split
  · exact setLink_kept l _ p
  · exact frameError_kept l p

theorem treatFrame_keepsLaws (l : LinkNo) (kind code number : Nat) (payload : List Byte) (p : Part) :
    KeepsLaws p (treatFrame l kind code number payload p) := by
  unfold treatFrame
  split
  · exact .refl p
  · split
    · exact (joinRequests_kept l _ p).keepsLaws
    · split
      · exact (frameError_kept l p).keepsLaws.trans (vacate_keepsLaws l _ _)
      · exact (frameError_kept l p).keepsLaws

theorem scan_keepsLaws (l : LinkNo) (n : Nat) (bytes : List Byte) (p : Part) : KeepsLaws p (scan l n bytes p) := by
  induction n generalizing bytes p with
  | zero => exact .refl p
  | succ n ih =>
    unfold scan
    split
    · exact .refl p
    · split
      · exact (setLink_kept l _ p).keepsLaws
      · exact (setLink_kept l _ p).keepsLaws
      · exact (frameError_kept l p).keepsLaws.trans (ih _ _)
      · exact (treatFrame_keepsLaws l _ _ _ _ p).trans (ih _ _)

theorem discardHeld_keepsLaws (l : LinkNo) (n : Nat) (p : Part) : KeepsLaws p (discardHeld l n p) := by
  have discarded (q : Part) : KeepsLaws q (discardFrame l q) := by
    unfold discardFrame
    split
    · exact .refl q
    · exact (frameError_kept l q).keepsLaws.trans (scan_keepsLaws l _ _ _)
  induction n generalizing p with
  | zero => exact .refl p
  | succ n ih =>
    unfold discardHeld
    split
    · exact .refl p
    · exact (discarded p).trans (ih _)

theorem dropReception_keepsLaws (l : LinkNo) (p : Part) : KeepsLaws p (dropReception l p) := discardHeld_keepsLaws l _ p

theorem loseSignal_keepsLaws (l : LinkNo) (p : Part) : KeepsLaws p (loseSignal l p) := by
  have dropped := dropReception_keepsLaws l p
  unfold loseSignal
  split
  · exact .refl p
  · dsimp only
    generalize dropReception l p = q at dropped ⊢
    have lost (x : LinkRec) := (((setLink_kept l x q).trans (dropOwedReply_kept l _)).trans (reevaluate_kept false _)).keepsLaws
    have expired {r : Part} (h : KeepsLaws q r) (now : Bool) : KeepsLaws q (if now then linkReset l r else r) := by
      split
      · exact h.trans (linkReset_keepsLaws l r)
      · exact h
    exact dropped.trans (expired (lost _) _)

theorem holdExpiry_keepsLaws (l : LinkNo) (p : Part) : KeepsLaws p (holdExpiry l p) := by
  unfold holdExpiry
  split
  · exact linkReset_keepsLaws l p
  · exact .refl p

theorem serveEnrol_kept (l : LinkNo) (role serial : Nat) (tools : List Nat) (p : Part) : Kept p (serveEnrol l role serial tools p).2 := by
  unfold serveEnrol
  split
  · exact .refl p
  · next r _ =>
    have taken : Kept p (enrolLink l r serial tools p) := (setLink_kept l _ p).trans (reevaluate_kept false _)
    dsimp only
    split
    · split
      · exact .refl p
      · exact taken
    · split
      · exact taken
      · split
        · exact taken
        · exact .refl p

theorem serveNtcset_kept (t : Settings) (p : Part) : Kept p (serveNtcset t p).2 :=
  ⟨⟨fun _ => ⟨rfl, rfl, rfl⟩, rfl, fun _ => rfl⟩, .of_blocks rfl rfl⟩

theorem serveLinkrst_keepsLaws (target : Nat) (p : Part) : KeepsLaws p (serveLinkrst target p).2 := by
  unfold serveLinkrst
  split
  · exact .refl p
  · exact linkReset_keepsLaws _ p

/-! A request command, a LINE CLEAR, the scrubber, power-on (R23, R57, R205, R217). -/

theorem serve_keepsLaws (l : LinkNo) (code number : Nat) {body : Part → Reply × Part} (h : ∀ q, KeepsLaws q (body q).2) (p : Part) :
    KeepsLaws p (serve l code number body p) := by
  unfold serve
  split
  · exact (composeReply_after _ _ _ _ p).kept.keepsLaws
  · exact ((after_deferred p (some [])).kept.keepsLaws.trans (h _)).trans
      ((reevaluate_after false _).trans (composeReply_after _ _ _ _ _)).kept.keepsLaws

theorem takeRequest_keepsLaws (l : LinkNo) (code number : Nat) (i : Instr) {body : Part → Reply × Part}
    (h : ∀ q, KeepsLaws q (body q).2) (p : Part) : KeepsLaws p (takeRequest l code number i body p) := by
  unfold takeRequest
  split
  · exact .refl p
  · exact (popRequest_after l p).kept.keepsLaws.trans (serve_keepsLaws l code number h _)
  · exact serve_keepsLaws l code number h p
  · exact (joinRequests_kept l _ p).keepsLaws

theorem takeLinclr_lawful (l : LinkNo) (number : Nat) (p : Part) : Lawful p (takeLinclr l number p) := by
  have begun (q : Part) : Lawful q (beginLinclr l number q) := by
    unfold beginLinclr
    split
    · exact ((popRequest_after l q).trans (composeReply_after _ _ _ _ _)).kept.lawful
    · exact lineClear_lawful none (some number) q
  unfold takeLinclr
  split
  · exact .refl p
  · exact begun p
  · exact (joinRequests_kept l _ p).lawful.trans (begun _)
  · exact (joinRequests_kept l _ p).lawful

theorem finishClear_kept (p : Part) : Kept p (finishClear p) := by
  unfold finishClear
  split
  · exact .refl p
  · next c _ =>
    dsimp only
    have marked : Kept p (if c.auto && ({ p with lif.clear := none } : Part).ztr.fault.isNone then
        ({ p with lif.clear := none, ztr.fault := some .doubleDamage } : Part) else { p with lif.clear := none }) := by
      split <;> exact .of_blocks rfl rfl rfl rfl
    have replied (q : Part) : After q (replyClear c q) := by
      unfold replyClear
      split
      · exact .refl q
      · exact (popRequest_after 0 q).trans (composeReply_after _ _ _ _ _)
    have reported (q : Part) : After q (reportClear c q) := by
      unfold reportClear
      split
      · exact compose_after _ q
      · exact .refl q
    refine marked.trans ?_
    exact (((replied _).trans (composeAll_after _ _)).trans (reported _)).kept.after_blocks rfl rfl rfl rfl

theorem scrub_lawful (p : Part) : Lawful p (scrub p) := by
  have read := readSlot_lawful p.rst.scrubPtr .rst p
  unfold scrub
  dsimp only
  generalize (readSlot p.rst.scrubPtr .rst p).2 = q at read ⊢
  exact read.trans (Kept.lawful ⟨⟨fun _ => ⟨rfl, rfl, rfl⟩, rfl, fun _ => rfl⟩, .of_blocks rfl rfl⟩)

theorem powerOn_laws (p : Part) : StoreLaws (powerOn p) ∧ OrderLaws (powerOn p) := by
  have raised : Kept Part.reset ((List.finRange 7).foldl upIfSignal (powered p)) := by
    refine (Kept.foldl (fun q l => ?_) _ (powered p)).after_blocks rfl rfl rfl rfl
    unfold upIfSignal
    split
    · exact signalUp_kept l q
    · exact .refl q
  have done := raised.keepsLaws.trans (finish_lawful _).keepsLaws
  exact ⟨done.store reset_storeLaws, done.order reset_orderLaws⟩

theorem fireSaw_lawful (p : Part) : Lawful p (fireSaw p) := by
  unfold fireSaw
  split
  · exact .refl p
  · exact takeDue_lawful _ p

/-! Every command. -/

theorem run_keepsLaws {f : Part → Part} (h : ∀ q, KeepsLaws q (f q)) (p : Part) : KeepsLaws p (run f p) := by
  unfold run
  split
  · exact .refl p
  · exact (h p).trans (finish_lawful _).keepsLaws

theorem request_keepsLaws (l : LinkNo) (code number : Nat) (i : Instr) {body : Part → Reply × Part} (h : ∀ q, KeepsLaws q (body q).2)
    (p : Part) : KeepsLaws p (run (takeRequest l code number i body) p) :=
  run_keepsLaws (takeRequest_keepsLaws l code number i h) p

/-- A request that only reads. -/
theorem readRequest_keepsLaws (l : LinkNo) (code number : Nat) (i : Instr) {body : Part → Reply × Part} (h : ∀ q, (body q).2 = q)
    (p : Part) : KeepsLaws p (run (takeRequest l code number i body) p) :=
  request_keepsLaws l code number i (fun q => by rw [h q]; exact .refl q) p

theorem assertReset_kept (p : Part) : Kept p (assertReset p) := .of_blocks rfl rfl rfl rfl
theorem endSawPulse_kept (p : Part) : Kept p (endSawPulse p) := .of_blocks rfl rfl rfl rfl
theorem endKickPulse_kept (b : BayNo) (p : Part) : Kept p (endKickPulse b p) := .of_blocks rfl rfl rfl rfl

/-- What a command leaves keeps the laws, or meets them whatever it found: POWER_ON_RESET. -/
def Preserves (p q : Part) : Prop := KeepsLaws p q ∨ (StoreLaws q ∧ OrderLaws q)

theorem Preserves.of_next {f : Part → Part} {s t : State} (k : next f s = .next t) (h : Preserves s.part (f s.part)) :
    Preserves s.part t.part := by cases k; exact h

theorem Preserves.of_keepsLaws {f : Part → Part} {s t : State} (k : next f s = .next t) (h : KeepsLaws s.part (f s.part)) :
    Preserves s.part t.part := .of_next k (.inl h)

theorem recordSignal_kept (l : LinkNo) (b : Bool) (p : Part) : Kept p (recordSignal l b p) := setLink_kept l _ p

theorem signalRises_keepsLaws (l : LinkNo) (p : Part) : KeepsLaws p (signalRises l p) := by
  unfold signalRises
  split
  · exact (recordSignal_kept l true p).keepsLaws
  · exact run_keepsLaws (fun q => (gainSignal_kept l q).keepsLaws) p

theorem signalFalls_keepsLaws (l : LinkNo) (p : Part) : KeepsLaws p (signalFalls l p) := by
  unfold signalFalls
  split
  · exact (recordSignal_kept l false p).keepsLaws
  · exact run_keepsLaws (loseSignal_keepsLaws l) p

/-- A request keeps the laws. -/
theorem requests_preserve {c : Instr} {s t : State} {x : LinkNo × Nat × Nat × List Byte} (request : requestForm c = some x)
    (h : exec c s = .next t) : Preserves s.part t.part := by
  cases c with
  | enrol l n r k ts => exact .of_keepsLaws h (request_keepsLaws l _ n _ (fun q => (serveEnrol_kept l r k ts q).keepsLaws) _)
  | recrd l n t => exact .of_keepsLaws h (request_keepsLaws l _ n _ (fun q => (serveRecrd_lawful t q).keepsLaws) _)
  | recret l n t => exact .of_keepsLaws h (request_keepsLaws l _ n _ (fun q => (serveRecret_lawful t q).keepsLaws) _)
  | errrd l n => exact .of_keepsLaws h (request_keepsLaws l _ n _ (fun q => (serveErrrd_kept q).keepsLaws) _)
  | geold l n g => exact .of_keepsLaws h (request_keepsLaws l _ n _ (fun q => (serveGeold_kept g q).keepsLaws) _)
  | linclr l n => exact .of_keepsLaws h (run_keepsLaws (fun q => (takeLinclr_lawful l n q).keepsLaws) _)
  | zonrd l n z x first => exact .of_keepsLaws h (readRequest_keepsLaws l _ n _ (serveZonrd_part z x first) _)
  | ctxld l n slot f => exact .of_keepsLaws h (request_keepsLaws l _ n _ (fun q => (serveCtxld_kept slot f q).keepsLaws) _)
  | ctxsel l n slot => exact .of_keepsLaws h (request_keepsLaws l _ n _ (fun q => (serveCtxsel_kept slot q).keepsLaws) _)
  | grdld l n species limits => exact .of_keepsLaws h (request_keepsLaws l _ n _ (fun q => (serveGrdld_kept species limits q).keepsLaws) _)
  | lingo l n => exact .of_keepsLaws h (request_keepsLaws l _ n _ (fun q => (serveRun_kept true q).keepsLaws) _)
  | linstp l n => exact .of_keepsLaws h (request_keepsLaws l _ n _ (fun q => (serveRun_kept false q).keepsLaws) _)
  | mapnext l n => exact .of_keepsLaws h (request_keepsLaws l _ n _ (fun q => (serveMapnext_lawful q).keepsLaws) _)
  | mappost l n f => exact .of_keepsLaws h (request_keepsLaws l _ n _ (fun q => (serveMappost_lawful f q).keepsLaws) _)
  | outcome l n t r => exact .of_keepsLaws h (request_keepsLaws l _ n _ (fun q => (serveOutcome_lawful t r q).keepsLaws) _)
  | ordadm l n f => exact .of_keepsLaws h (request_keepsLaws l _ n _ (serveOrdadm_keepsLaws f) _)
  | ordamd l n o m => exact .of_keepsLaws h (request_keepsLaws l _ n _ (serveOrdamd_keepsLaws o m) _)
  | ordcan l n o => exact .of_keepsLaws h (request_keepsLaws l _ n _ (serveOrdcan_keepsLaws o) _)
  | ordrem l n o => exact .of_keepsLaws h (request_keepsLaws l _ n _ (serveOrdrem_keepsLaws o) _)
  | ordrd l n w v => exact .of_keepsLaws h (readRequest_keepsLaws l _ n _ (serveOrdrd_part w v) _)
  | bayhld l n b => exact .of_keepsLaws h (request_keepsLaws l _ n _ (fun q => (serveBayhld_lawful l b q).keepsLaws) _)
  | bayrel l n b => exact .of_keepsLaws h (request_keepsLaws l _ n _ (serveBayrel_keepsLaws l b) _)
  | baycls l n b => exact .of_keepsLaws h (request_keepsLaws l _ n _ (serveBaycls_keepsLaws b) _)
  | lblrd l n b => exact .of_keepsLaws h (readRequest_keepsLaws l _ n _ (serveLblrd_part b) _)
  | bdlret l n b o k => exact .of_keepsLaws h (request_keepsLaws l _ n _ (serveBdlret_keepsLaws b o k) _)
  | ntcset l n t => exact .of_keepsLaws h (request_keepsLaws l _ n _ (fun q => (serveNtcset_kept t q).keepsLaws) _)
  | cntrd l n => exact .of_keepsLaws h (readRequest_keepsLaws l _ n _ (fun _ => rfl) _)
  | linkrst l n k => exact .of_keepsLaws h (request_keepsLaws l _ n _ (serveLinkrst_keepsLaws k) _)
  | _ => cases request

/-- A step of the part's own keeps the laws, or is POWER_ON_RESET, which sets them up. -/
theorem steps_preserve {c : Instr} {s t : State} (step : requestForm c = none) (h : exec c s = .next t) : Preserves s.part t.part := by
  cases c with
  | powerOnReset => exact .of_next h (.inr (powerOn_laws _))
  | resetInputAsserted => exact .of_keepsLaws h (assertReset_kept _).keepsLaws
  | linkSignalUp l => exact .of_keepsLaws h (signalRises_keepsLaws l _)
  | linkSignalLoss l => exact .of_keepsLaws h (signalFalls_keepsLaws l _)
  | zoneForwardStep z => exact .of_keepsLaws h (run_keepsLaws (fun q => (stepForward_kept _ q).keepsLaws) _)
  | zoneReverseStep z => exact .of_keepsLaws h (run_keepsLaws (fun q => (stepReverse_lawful _ q).keepsLaws) _)
  | lugPulse b => exact .of_keepsLaws h (run_keepsLaws (fun q => (stepLug_lawful b q).keepsLaws) _)
  | aEyeLeadingEdge => exact .of_keepsLaws h (run_keepsLaws (fun q => (aEyeLeading_lawful q).keepsLaws) _)
  | aEyeTrailingEdge => exact .of_keepsLaws h (run_keepsLaws (fun q => (aEyeTrailing_lawful q).keepsLaws) _)
  | bEyeLeadingEdge => exact .of_keepsLaws h (run_keepsLaws (fun q => (bEyeLeading_lawful q).keepsLaws) _)
  | bEyeTrailingEdge => exact .of_keepsLaws h (run_keepsLaws (fun q => (bEyeTrailing_lawful q).keepsLaws) _)
  | cEyeLeadingEdge => exact .of_keepsLaws h (run_keepsLaws (fun q => (cEyeLeading_lawful q).keepsLaws) _)
  | cEyeTrailingEdge => exact .of_keepsLaws h (run_keepsLaws (fun q => (cEyeTrailing_kept q).keepsLaws) _)
  | eEyeLeadingEdge => exact .of_keepsLaws h (run_keepsLaws (fun q => (eEyeLeading_lawful q).keepsLaws) _)
  | endEyeLeadingEdge => exact .of_keepsLaws h (run_keepsLaws (fun q => (endEyeLeading_lawful q).keepsLaws) _)
  | eyeTrailingEdge eye => exact .of_keepsLaws h (run_keepsLaws (fun q => (sorterTrailing_kept eye q).keepsLaws) _)
  | handoffExpiry z => exact .of_keepsLaws h (run_keepsLaws (fun q => (takeDue_lawful _ q).keepsLaws) _)
  | deadlineCompare t => exact .of_keepsLaws h (run_keepsLaws (fun q => (takeDue_lawful _ q).keepsLaws) _)
  | planCompletion => exact .of_keepsLaws h (run_keepsLaws (fun q => (completePlan_lawful q).keepsLaws) _)
  | sawActionFiring => exact .of_keepsLaws h (run_keepsLaws (fun q => (fireSaw_lawful q).keepsLaws) _)
  | lastCutCompare => exact .of_keepsLaws h (run_keepsLaws (fun q => (takeDue_lawful _ q).keepsLaws) _)
  | sawPulseEnd => exact .of_keepsLaws h (run_keepsLaws (fun q => (endSawPulse_kept q).keepsLaws) _)
  | wasteOpenTarget t => exact .of_keepsLaws h (run_keepsLaws (fun q => (takeDue_lawful _ q).keepsLaws) _)
  | wasteShutTarget t => exact .of_keepsLaws h (run_keepsLaws (fun q => (takeDue_lawful _ q).keepsLaws) _)
  | flapPulseEnd => exact .of_keepsLaws h (run_keepsLaws (fun q => (endFlapPulse_kept q).keepsLaws) _)
  | deadTimeExpiry => exact .of_keepsLaws h (run_keepsLaws (fun q => (endDeadTime_kept q).keepsLaws) _)
  | sortCompare t => exact .of_keepsLaws h (run_keepsLaws (fun q => (takeDue_lawful _ q).keepsLaws) _)
  | kickFiring b t => exact .of_keepsLaws h (run_keepsLaws (fun q => (takeDue_lawful _ q).keepsLaws) _)
  | kickPulseEnd b => exact .of_keepsLaws h (run_keepsLaws (fun q => (endKickPulse_kept b q).keepsLaws) _)
  | tenonerCompare l => exact .of_keepsLaws h (run_keepsLaws (fun q => (takeDue_lawful _ q).keepsLaws) _)
  | scrubRead => exact .of_keepsLaws h (run_keepsLaws (fun q => (scrub_lawful q).keepsLaws) _)
  | lineClearComplete => exact .of_keepsLaws h (run_keepsLaws (fun q => (finishClear_kept q).keepsLaws) _)
  | holdTimerExpiry l => exact .of_keepsLaws h (run_keepsLaws (holdExpiry_keepsLaws l) _)
  | cntntcDelayExpiry => exact .of_keepsLaws h (run_keepsLaws (fun q => (reportCounts_kept q).keepsLaws) _)
  | cntntcCeilingExpiry => exact .of_keepsLaws h (run_keepsLaws (fun q => (reportCounts_kept q).keepsLaws) _)
  | frameReceived l bytes => exact .of_keepsLaws h (run_keepsLaws (fun q => scan_keepsLaws l _ _ q) _)
  | frameByteTimeout l => exact .of_keepsLaws h (run_keepsLaws (dropReception_keepsLaws l) _)
  | transmitFrameSent l => exact .of_keepsLaws h (run_keepsLaws (fun q => (setLink_kept l _ q).keepsLaws) _)
  | _ => cases step

theorem exec_preserves {c : Instr} {s t : State} (h : exec c s = .next t) : Preserves s.part t.part := by
  cases form : requestForm c with
  | none => exact steps_preserve form h
  | some x => exact requests_preserve form h

/-- Settles O60: every operation keeps the laws, or is the power-on that sets them up. -/
theorem recordAndBundleLawsKeptByEveryStep : Obligations.RecordAndBundleLawsKeptByEveryStep :=
  ⟨fun _ _ w k => step_keeps (fun _ _ _ w h => (exec_preserves h).elim (fun k => k.store w) fun k => k.1) w k,
    fun _ _ w k => step_keeps (fun _ _ _ w h => (exec_preserves h).elim (fun k => k.order w) fun k => k.2) w k⟩

end Sys2Proof.Machine

/-! PROOFS. The wire: fields written are read back, and a frame made is the frame received (11.1). -/

namespace Sys2Proof

/-! Fields (R202). -/

theorem get8_put8 {n : Nat} (h : fits8 n = true) (r : List Byte) : get8 (put8 n ++ r) = some (n, r) := by
  have := of_decide_eq_true h
  simp only [put8, List.cons_append, List.nil_append, get8, BitVec.toNat_ofNat, Option.some.injEq, Prod.mk.injEq, and_true]
  omega

theorem get16_put16 {n : Nat} (h : fits16 n = true) (r : List Byte) : get16 (put16 n ++ r) = some (n, r) := by
  have := of_decide_eq_true h
  simp only [put16, List.cons_append, List.nil_append, get16, BitVec.toNat_ofNat, Option.some.injEq, Prod.mk.injEq, and_true]
  omega

theorem get32_put32 {n : Nat} (h : fits32 n = true) (r : List Byte) : get32 (put32 n ++ r) = some (n, r) := by
  have := of_decide_eq_true h
  simp only [put32, List.cons_append, List.nil_append, get32, BitVec.toNat_ofNat, Option.some.injEq, Prod.mk.injEq, and_true]
  omega

theorem getFlag_putFlag (b : Bool) (r : List Byte) : getFlag (putFlag b ++ r) = some (b, r) := by cases b <;> rfl

theorem getMany_putMany {α : Type} {get : List Byte → Option (α × List Byte)} {put : α → List Byte} {xs : List α}
    (h : ∀ x ∈ xs, ∀ r, get (put x ++ r) = some (x, r)) (r : List Byte) :
    getMany get xs.length (putMany put xs ++ r) = some (xs, r) := by
  induction xs with
  | nil => rfl
  | cons x xs ih =>
    have e : putMany put (x :: xs) ++ r = put x ++ (putMany put xs ++ r) := by simp [putMany]
    rw [e, List.length_cons, getMany, h x List.mem_cons_self]
    simp [ih fun y m => h y (List.mem_cons_of_mem _ m)]

theorem getList_putList {α : Type} {get : List Byte → Option (α × List Byte)} {put : α → List Byte} {xs : List α}
    (count : fits8 xs.length = true) (h : ∀ x ∈ xs, ∀ r, get (put x ++ r) = some (x, r)) (r : List Byte) :
    getList get (putList put xs ++ r) = some (xs, r) := by
  rw [getList, putList, List.append_assoc, get8_put8 count]
  exact getMany_putMany h r

theorem getList_put16 {xs : List Nat} (count : fits8 xs.length = true) (h : xs.all fits16 = true) (r : List Byte) :
    getList get16 (putList put16 xs ++ r) = some (xs, r) :=
  getList_putList count (fun x m => get16_put16 (List.all_eq_true.1 h x m)) r

theorem getMany_put16 {xs : List Nat} {n : Nat} (count : xs.length = n) (h : xs.all fits16 = true) (r : List Byte) :
    getMany get16 n (putMany put16 xs ++ r) = some (xs, r) :=
  count ▸ getMany_putMany (fun x m => get16_put16 (List.all_eq_true.1 h x m)) r

/-! The same, for a field that more fields follow. -/

theorem bind_get8 {β : Type} {n : Nat} (h : fits8 n = true) (r : List Byte) (f : Nat × List Byte → Option β) :
    (get8 (put8 n ++ r) >>= f) = f (n, r) := by rw [get8_put8 h]; rfl

theorem bind_get16 {β : Type} {n : Nat} (h : fits16 n = true) (r : List Byte) (f : Nat × List Byte → Option β) :
    (get16 (put16 n ++ r) >>= f) = f (n, r) := by rw [get16_put16 h]; rfl

theorem bind_get32 {β : Type} {n : Nat} (h : fits32 n = true) (r : List Byte) (f : Nat × List Byte → Option β) :
    (get32 (put32 n ++ r) >>= f) = f (n, r) := by rw [get32_put32 h]; rfl

theorem bind_getList16 {β : Type} {xs : List Nat} (count : fits8 xs.length = true) (h : xs.all fits16 = true) (r : List Byte)
    (f : List Nat × List Byte → Option β) : (getList get16 (putList put16 xs ++ r) >>= f) = f (xs, r) := by
  rw [getList_put16 count h]; rfl

theorem bind_getMany16 {β : Type} {xs : List Nat} {n : Nat} (count : xs.length = n) (h : xs.all fits16 = true) (r : List Byte)
    (f : List Nat × List Byte → Option β) : (getMany get16 n (putMany put16 xs ++ r) >>= f) = f (xs, r) := by
  rw [getMany_put16 count h]; rfl

theorem getDefect_putDefect {d : Defect} (h : d.wf = true) (r : List Byte) : getDefect (putDefect d ++ r) = some (d, r) := by
  simp only [Defect.wf, Bool.and_eq_true] at h
  simp [getDefect, putDefect, get8_put8, get16_put16, h]

theorem getKick_putKick {k : Nat × Nat} (h : (fits32 k.1 && fits16 k.2) = true) (r : List Byte) :
    getKick (putKick k ++ r) = some (k, r) := by
  simp only [Bool.and_eq_true] at h
  simp [getKick, putKick, get16_put16, get32_put32, h]

theorem getGeometry_putGeometry {g : Geometry} (h : g.wf = true) (r : List Byte) :
    getGeometry (putGeometry g ++ r) = some (g, r) := by
  simp only [Geometry.wf, Bool.and_eq_true, List.all_cons, List.all_nil, beq_iff_eq, and_true] at h
  obtain ⟨⟨fields, count⟩, kicks⟩ := h
  have fits (k : Nat × Nat) (m : k ∈ g.kicks) : (fits32 k.1 && fits16 k.2) = true := List.all_eq_true.1 kicks k m
  have pairs := getMany_putMany (fun k m => getKick_putKick (fits k m)) r
  rw [count] at pairs
  unfold putGeometry
  simp only [List.append_assoc]
  simp only [getGeometry, ↓bind_get8, ↓bind_get16, ↓bind_get32, fields, pairs, Option.bind_eq_bind, Option.bind_some]

theorem getProfile_putProfile {f : Profile} (h : f.wf = true) (r : List Byte) : getProfile (putProfile f ++ r) = some (f, r) := by
  simp only [Profile.wf, Bool.and_eq_true, beq_iff_eq] at h
  obtain ⟨⟨⟨⟨⟨⟨⟨⟨fields, columns⟩, countB⟩, countC⟩, valuesA⟩, valuesB⟩, valuesC⟩, bonus⟩, maxLen⟩ := h
  simp only [putProfile, List.append_assoc]
  simp only [getProfile, ↓bind_get8, ↓bind_get16, ↓bind_getList16, ↓bind_getMany16 rfl valuesA, ↓bind_getMany16 countB valuesB,
    ↓bind_getMany16 countC valuesC, fields, columns, bonus, get16_put16 maxLen, Option.bind_eq_bind, Option.bind_some]

theorem getLimit_putLimit {l : GradeLimit} (h : (fits8 l.count && fits8 l.size) = true) (r : List Byte) :
    getLimit (putLimit l ++ r) = some (l, r) := by
  simp only [Bool.and_eq_true] at h
  simp [getLimit, putLimit, get8_put8, h]

theorem getOrderForm_putOrderForm {f : OrderForm} (h : f.wf = true) (r : List Byte) :
    getOrderForm (putOrderForm f ++ r) = some (f, r) := by
  simp only [OrderForm.wf, Bool.and_eq_true] at h
  simp [getOrderForm, putOrderForm, get8_put8, get16_put16, get32_put32, getList_put16, h]

theorem getMapForm_putMapForm {f : MapForm} (h : f.wf = true) (r : List Byte) : getMapForm (putMapForm f ++ r) = some (f, r) := by
  simp only [MapForm.wf, Bool.and_eq_true] at h
  obtain ⟨⟨⟨tag, length⟩, count⟩, defects⟩ := h
  have entries := getList_putList (xs := f.defects) count fun d m => getDefect_putDefect (List.all_eq_true.1 defects d m)
  simp [getMapForm, putMapForm, get16_put16, tag, length, entries, getFlag_putFlag]

theorem getSettings_putSettings {t : Settings} (h : t.wf = true) (r : List Byte) : getSettings (putSettings t ++ r) = some (t, r) := by
  simp only [Settings.wf, Bool.and_eq_true] at h
  simp [getSettings, putSettings, get8_put8, get16_put16, h]

/-- A request's fields are read back behind its own bytes, whatever follows. -/
theorem getRequest_requestForm {i : Instr} {l : LinkNo} {code number : Nat} {payload : List Byte} (w : i.wf = true)
    (h : requestForm i = some (l, code, number, payload)) (r : List Byte) :
    getRequest l code number (payload ++ r) = some (some (i, r)) := by
  cases i <;> simp only [requestForm, Option.some.injEq, Prod.mk.injEq, reduceCtorEq] at h <;> obtain ⟨rfl, rfl, rfl, rfl⟩ := h <;>
    simp only [Instr.wf, Bool.and_eq_true] at w
  case enrol =>
    obtain ⟨⟨rest, count⟩, tools⟩ := w
    have entries := getList_putList count fun x m => get8_put8 (List.all_eq_true.1 tools x m)
    simp [getRequest, get8_put8, get32_put32, rest, entries]
  case grdld species limits _ =>
    obtain ⟨⟨rest, count⟩, limits⟩ := w
    have entries := getMany_putMany (fun x m => getLimit_putLimit (List.all_eq_true.1 limits x m)) r
    rw [beq_iff_eq.1 count] at entries
    simp [getRequest, get8_put8, rest, entries]
  case ordrd which value =>
    by_cases z : which = 0 <;> simp only [z, if_true, if_false] at w <;> simp [getRequest, get8_put8, get32_put32, z, w]
  all_goals simp [getRequest, get8_put8, get16_put16, get32_put32, getGeometry_putGeometry, getProfile_putProfile,
    getOrderForm_putOrderForm, getMapForm_putMapForm, getSettings_putSettings, w]

/-- Settles O8: every field is read back behind its own bytes. -/
theorem decodedRequestIsEncodedRequest : Obligations.DecodedRequestIsEncodedRequest := by
  intro i l code number payload w h
  have read := getRequest_requestForm w h []
  rw [List.append_nil] at read
  rw [decodeRequest, read]

end Sys2Proof

/-! PROOFS. Frames made and received (11.1). -/

namespace Sys2Proof

/-- The check bytes of a frame's bytes 1 to 4 + length, high byte first (Table 11-1). -/
def checkBytes (body : List Byte) : List Byte := [(crc16 body >>> 8).setWidth 8, (crc16 body).setWidth 8]

/-- A frame's bytes between its marker and its check (Table 11-1). -/
def frameBody (kind code number : Nat) (payload : List Byte) : List Byte :=
  [BitVec.ofNat 8 kind, BitVec.ofNat 8 code, BitVec.ofNat 8 number, BitVec.ofNat 8 payload.length] ++ payload

theorem frameBytes_eq (kind code number : Nat) (payload : List Byte) :
    frameBytes kind code number payload = 0xD4#8 :: (frameBody kind code number payload ++ checkBytes (frameBody kind code number payload)) :=
  rfl

/-- Bytes before a start marker are passed over (R203). -/
theorem receive_noise {noise : List Byte} (h : 0xD4#8 ∉ noise) (bytes : List Byte) : receive (noise ++ bytes) = receive bytes := by
  have passed : ∀ b ∈ noise, (b != 0xD4#8) = true := fun b m => by
    simp only [bne_iff_ne, ne_eq]
    exact fun e => h (e ▸ m)
  rw [receive, receive, List.dropWhile_append_of_pos passed]

theorem receive_searching {noise : List Byte} (h : 0xD4#8 ∉ noise) : receive noise = .searching := by
  have := receive_noise h []
  rwa [List.append_nil] at this

/-- A marker, a body of the length it states, and two bytes: a whole frame where these are its check, else discarded (R203). -/
theorem receive_frame (kind code number : Nat) {payload : List Byte} (h : payload.length < 256) (hi lo : Byte) (rest : List Byte) :
    receive (0xD4#8 :: (frameBody kind code number payload ++ [hi, lo] ++ rest)) =
      if [hi, lo] = checkBytes (frameBody kind code number payload) then
        .whole (kind % 256) (code % 256) (number % 256) payload rest
      else .bad (frameBody kind code number payload ++ [hi, lo] ++ rest) := by
  have length : (BitVec.ofNat 8 payload.length).toNat = payload.length := by
    rw [BitVec.toNat_ofNat]; omega
  unfold receive
  simp [frameBody, length, checkBytes]

theorem highByte_append_lowByte (c : Check16) : (c >>> 8).setWidth 8 ++ c.setWidth 8 = c := by
  ext i h
  simp only [BitVec.getElem_append, BitVec.getElem_setWidth, BitVec.getLsbD_ushiftRight]
  split
  · rw [BitVec.getLsbD_eq_getElem]
  · rw [show 8 + (i - 8) = i by omega, BitVec.getLsbD_eq_getElem]

/-- Settles O9: the search stops at the frame's marker, and what follows is read as a frame. -/
theorem framesAreReceivedOrDiscarded : Obligations.FramesAreReceivedOrDiscarded := by
  refine ⟨fun noise payload rest kind code number clean hkind hcode hnumber hlength => ?_,
    fun noise payload rest kind code number hi lo clean hlength => ?_⟩
  · rw [List.append_assoc, receive_noise clean, frameBytes_eq, List.cons_append, checkBytes, receive_frame _ _ _ hlength]
    rw [if_pos (by rfl), Nat.mod_eq_of_lt hkind, Nat.mod_eq_of_lt hcode, Nat.mod_eq_of_lt hnumber]
  · intro body differ
    rw [List.append_assoc, receive_noise clean, List.cons_append, show body = frameBody kind code number payload from rfl,
      receive_frame _ _ _ hlength]
    refine if_neg fun e => differ ?_
    simp only [checkBytes, List.cons.injEq, and_true] at e
    obtain ⟨rfl, rfl⟩ := e
    exact highByte_append_lowByte _

end Sys2Proof

/-! PROOFS. What a command's end adds to a link: nothing where no request waits and PERMIT stands, one LINSTA on link 0 where PERMIT
changes (11.2, 3.6). -/

namespace Sys2Proof.Machine

open Sys2Proof

theorem link_setLink (l : LinkNo) (x : LinkRec) (p : Part) (k : LinkNo) : (p.setLink l x).link k = if l = k then x else p.link k := by
  split
  · next h => subst h; simp
  · next h => exact Part.link_setLink_other _ _ _ _ h

/-! The Link Interface's own answers. -/

theorem answerHeads_idle {l : LinkNo} {p : Part} (h : (p.link l).requests = []) (n : Nat) : answerHeads l n p = p := by
  cases n with
  | zero => rfl
  | succ n => simp [answerHeads, h]

theorem answerHeads_link_other {l k : LinkNo} (h : l ≠ k) (n : Nat) (p : Part) : (answerHeads l n p).link k = p.link k := by
  induction n generalizing p with
  | zero => rfl
  | succ n ih =>
    unfold answerHeads
    split
    · rfl
    · split
      · rfl
      · split
        · rw [ih]; simp [composeReply, transmit, popRequest, link_setLink, h]
        · rfl

theorem answerHeads_cpl (l : LinkNo) (n : Nat) (p : Part) : (answerHeads l n p).cpl = p.cpl := by
  induction n generalizing p with
  | zero => rfl
  | succ n ih =>
    unfold answerHeads
    split
    · rfl
    · split
      · rfl
      · split
        · rw [ih]; rfl
        · rfl

theorem answerAll_cpl (p : Part) : (answerAll p).cpl = p.cpl :=
  foldl_within (R := fun x y : Part => y.cpl = x.cpl) (fun _ => rfl) (fun h k => k.trans h) (fun p l => answerHeads_cpl l _ p) _ p

theorem answerAll_sameConditions (p : Part) : SameConditions p (answerAll p) := (answerAll_after p).sameConditions (answerAll_cpl p)

/-- A link on which no request waits is left as it is. -/
theorem answerAll_link {l : LinkNo} {p : Part} (h : (p.link l).requests = []) : (answerAll p).link l = p.link l := by
  refine foldl_within (R := fun x y : Part => (x.link l).requests = [] → y.link l = x.link l) (fun _ _ => rfl)
    (fun {x y z} f g k => ?_) (fun q k e => ?_) _ p h
  · have e := f k
    rw [← e] at k ⊢
    exact g k
  · by_cases s : k = l
    · rw [s, answerHeads_idle e]
    · exact answerHeads_link_other s _ q

/-! PERMIT re-evaluated. -/

theorem recompute_link (p : Part) (l : LinkNo) : (recompute p).link l = p.link l := rfl
theorem recompute_deferred (p : Part) : (recompute p).lif.deferred = p.lif.deferred := rfl

theorem reevaluate_still {p : Part} (h : permitNow p = p.cpl.permit) : reevaluate false p = recompute p := by
  unfold reevaluate
  simp only [h, Bool.false_or, bne_self_eq_false, Bool.false_eq_true, if_false]
  rw [recompute, h]

theorem reevaluate_changed {p : Part} (h : permitNow p ≠ p.cpl.permit) :
    reevaluate false p = raise (linsta (recompute p)) (recompute p) := by
  have k : (permitNow p != p.cpl.permit) = true := by simpa using h
  unfold reevaluate
  simp only [k, Bool.or_true, if_true]
  rfl

theorem raise_now {n : Notice} {p : Part} (h : p.lif.deferred = none) : raise n p = compose n p := by
  unfold raise
  rw [h]

theorem raise_later {n : Notice} {p : Part} {ns : List Notice} (h : p.lif.deferred = some ns) :
    raise n p = { p with lif.deferred := some (ns ++ [n]) } := by
  unfold raise
  rw [h]

/-- A notice to the supervisor in UP joins link 0's transmit list where fewer than 56 frames wait. -/
theorem compose_supervisor {p : Part} (up : (p.link 0).state = .up) (room : (p.link 0).transmit.length < 56) (code : Nat)
    (fields : List Item) : compose ⟨.supervisor, code, fields⟩ p =
      p.setLink 0 { p.link 0 with transmit := (p.link 0).transmit ++ [⟨.notice, code, 0, fields⟩] } := by
  have room : ¬ Config.noticeLimit ≤ (p.link 0).transmit.length := by simp only [Config.noticeLimit]; omega
  simp only [compose, destLink, up, if_true, sendNotice, room, if_false, transmit]

theorem compose_link_other {n : Notice} {p : Part} {l : LinkNo} (h : destLink n.dest p ≠ some l) : (compose n p).link l = p.link l := by
  unfold compose
  split
  · rfl
  · next k hk =>
    have ne : k ≠ l := fun e => h (e ▸ hk)
    unfold sendNotice transmit
    dsimp only
    split <;> exact Part.link_setLink_other _ _ _ _ ne

/-- A station link is not changed by a re-evaluation. -/
theorem reevaluate_link_station {l : LinkNo} (h : l ≠ 0) {b : Bool} {p : Part} : (reevaluate b p).link l = p.link l := by
  have elsewhere : destLink .supervisor (recompute p) ≠ some l := by
    unfold destLink
    dsimp only
    split
    · exact fun e => h (Option.some.inj e).symm
    · exact nofun
  rcases reevaluate_eq b p with e | e <;> rw [e]
  · rfl
  · unfold raise
    split
    · exact compose_link_other elsewhere
    · rfl

/-! The end of a command. -/

theorem noticeOrder_nil : noticeOrder [] = [] := rfl

theorem flushDeferred_idle {p : Part} (h : p.lif.deferred = none) : flushDeferred p = p := by
  unfold flushDeferred
  rw [h, Option.getD_none, noticeOrder_nil, ← h]
  rfl

theorem finish_of_settled {p : Part} (h : Settled p) : finish p = reevaluate false (answerAll p) := by
  rw [finish, settleAll_idle p h.1, flushDeferred_idle h.2]

theorem finish_link_station {l : LinkNo} {p : Part} (h : l ≠ 0) (settled : Settled p) (none_waits : (p.link l).requests = []) :
    (finish p).link l = p.link l := by
  rw [finish_of_settled settled, reevaluate_link_station h, answerAll_link none_waits]

theorem finish_link_still {l : LinkNo} {p : Part} (settled : Settled p) (none_waits : (p.link l).requests = [])
    (still : permitNow p = p.cpl.permit) : (finish p).link l = p.link l := by
  have still' : permitNow (answerAll p) = (answerAll p).cpl.permit := by
    rw [(answerAll_sameConditions p).permitNow, answerAll_cpl]; exact still
  rw [finish_of_settled settled, reevaluate_still still', recompute_link, answerAll_link none_waits]

theorem run_of_running {p : Part} (f : Part → Part) (r : Running p) : run f p = finish (f p) := by
  unfold run
  exact if_neg (by rw [show p.inReset = false from r]; exact Bool.false_ne_true)

theorem leavesFrames_of_finish {c : Instr} {f : Part → Part} {s : State} {l : LinkNo} {fs : List Frame}
    (hc : exec c s = next (run f) s) (r : Running s.part) (h : ((finish (f s.part)).link l).transmit = fs) : LeavesFrames c s l fs :=
  ⟨⟨run f s.part, s.pending⟩, hc, by simpa only [run_of_running f r] using h⟩

end Sys2Proof.Machine

/-! PROOFS. The reset input and power-on (11.10, 11.11), and the announcement of a link that takes signal up (11.3). -/

namespace Sys2Proof.Machine

open Sys2Proof

/-- The fields of ANNC on a link that is not HOLDING (R207). -/
def annc (l : LinkNo) (state hold : Nat) : List Item := [.u32 0x464C0014, .u8 l.val, .u8 state, .u8 0, .u8 0, .u16 hold]

/-- A notice joins a link's transmit list where fewer than 56 frames wait (R206). -/
theorem sendNotice_room {l : LinkNo} {p : Part} (h : (p.link l).transmit.length < 56) (code : Nat) (fields : List Item) :
    sendNotice l code fields p =
      p.setLink l { p.link l with transmit := (p.link l).transmit ++ [⟨.notice, code, 0, fields⟩] } := by
  have room : ¬ Config.noticeLimit ≤ (p.link l).transmit.length := by simp only [Config.noticeLimit]; omega
  simp only [sendNotice, room, if_false, transmit]

theorem setLink_setLink (l : LinkNo) (x y : LinkRec) (p : Part) : (p.setLink l x).setLink l y = p.setLink l y := by
  simp [Part.setLink]

@[simp] theorem setLink_hold (l : LinkNo) (x : LinkRec) (p : Part) : (p.setLink l x).lif.hold = p.lif.hold := rfl

theorem anncItems_of_not_holding {l : LinkNo} {p : Part} (h : (p.link l).state ≠ .holding) :
    anncItems l p = [.u32 0x464C0014, .u8 l.val, linkStateItem l (p.link l).state, .u8 0, .u8 0, .u16 p.lif.hold] := by
  simp [anncItems, h, optItems, Config.identity]

theorem setLink_self (l : LinkNo) (p : Part) : p.setLink l (p.link l) = p := by simp [Part.setLink, Part.link]

/-- Signal up, with its ANNC (R207, R211). -/
theorem signalUp_eq {l : LinkNo} {p : Part} (h : (p.link l).transmit.length < 56) :
    signalUp l p = p.setLink l { p.link l with
      state := if l = 0 then .up else .waiting
      transmit := (p.link l).transmit ++ [⟨.notice, 0x80, 0, annc l 1 p.lif.hold⟩] } := by
  have items : anncItems l (p.setLink l { p.link l with state := if l = 0 then .up else .waiting }) = annc l 1 p.lif.hold := by
    by_cases z : l = 0
    · subst z; rw [anncItems_of_not_holding (by simp)]; simp [annc, linkStateItem, linkStateNo]
    · rw [anncItems_of_not_holding (by simp [z])]; simp [annc, z, linkStateItem, linkStateNo]
  rw [signalUp, announce, items, sendNotice_room (by simpa using h), setLink_setLink, Part.link_setLink_same, codeANNC]

/-! Power-on (R217). -/

/-- What power-on makes of a link by its signal. -/
def poweredLink (l : LinkNo) (signal : Bool) : LinkRec :=
  if signal then
    { linkReset0 with
      signal := true
      state := if l = 0 then .up else .waiting
      transmit := [⟨.notice, 0x80, 0, annc l 1 2000⟩] }
  else linkReset0

theorem powered_link (p : Part) (l : LinkNo) : (powered p).link l = { linkReset0 with signal := (p.link l).signal } := by
  simp [powered, Part.link]

theorem upIfSignal_poweredLink {p q : Part} (hold : q.lif.hold = 2000) {l : LinkNo}
    (h : q.link l = { linkReset0 with signal := (p.link l).signal }) : upIfSignal q l = q.setLink l (poweredLink l (p.link l).signal) := by
  have signal : (q.link l).signal = (p.link l).signal := by rw [h]
  unfold upIfSignal poweredLink
  rw [signal]
  cases s : (p.link l).signal with
  | false =>
    rw [s] at h
    rw [if_neg Bool.false_ne_true, if_neg Bool.false_ne_true, show linkReset0 = q.link l by rw [h]; rfl, setLink_self]
  | true =>
    rw [s] at h
    rw [if_pos rfl, if_pos rfl, signalUp_eq (by rw [h]; decide), h, hold]
    rfl

/-- The links that have been gone through have taken signal up, the others wait for it; nothing but the links changes. -/
theorem foldl_upIfSignal (p : Part) (ls : List LinkNo) (once : ls.Nodup) (q : Part) (hold : q.lif.hold = 2000)
    (h : ∀ l ∈ ls, q.link l = { linkReset0 with signal := (p.link l).signal }) :
    let r := ls.foldl upIfSignal q
    r = { q with lif.link := r.lif.link }
      ∧ ∀ l, r.link l = if l ∈ ls then poweredLink l (p.link l).signal else q.link l := by
  induction ls generalizing q with
  | nil => exact ⟨rfl, fun _ => rfl⟩
  | cons k ks ih =>
    obtain ⟨fresh, once⟩ := List.nodup_cons.1 once
    rw [List.foldl_cons, upIfSignal_poweredLink hold (h k List.mem_cons_self)]
    obtain ⟨shape, links⟩ := ih once (q.setLink k (poweredLink k (p.link k).signal)) hold fun l m => by
      rw [Part.link_setLink_other _ _ _ _ fun e => fresh (by rw [e]; exact m)]
      exact h l (List.mem_cons_of_mem _ m)
    refine ⟨shape, fun l => ?_⟩
    rw [links, link_setLink]
    by_cases e : k = l
    · subst e; simp [fresh]
    · have e' : l ≠ k := Ne.symm e
      simp [e, e']

theorem poweredLink_idle (l : LinkNo) (s : Bool) : (poweredLink l s).requests = [] ∧ (poweredLink l s).role = none := by
  unfold poweredLink
  split <;> exact ⟨rfl, rfl⟩

theorem answerAll_idle {p : Part} (h : ∀ l, (p.link l).requests = []) : answerAll p = p := by
  refine (foldl_within (R := fun x y : Part => (∀ l, (x.link l).requests = []) → y = x) (fun _ _ => rfl) (fun {x y z} f g k => ?_)
    (fun q l k => answerHeads_idle (k l) _) _ p) h
  have e := f k
  rw [← e] at k
  exact (g k).trans e

/-- A part whose conditions are already as its links give them is left by a re-evaluation as it is. -/
theorem recompute_self {p : Part} (runnable : runnableCtx p.cpl.active p = p.cpl.runnable) (report : permitReport p = p.cpl.report)
    (permit : permitNow p = p.cpl.permit) : recompute p = p := by
  unfold recompute
  rw [runnable, report, permit]

/-- With no link holding a role, PERMIT's conditions after power-on are those of the reset state. -/
theorem finish_powered {p : Part} (shape : p = { Part.reset with lif.link := p.lif.link })
    (idle : ∀ l, (p.link l).requests = [] ∧ (p.link l).role = none) : finish p = p := by
  have settled : Settled p := by rw [shape]; exact ⟨rfl, rfl⟩
  have nobody (r : Role) : enrolledLink r p = none := by
    simp [enrolledLink, fun l => (idle l).2]
  have cpl : p.cpl = plannerReset := by rw [shape]; rfl
  have empty (c : CtxNo) : p.ctx c = ⟨none, 0⟩ := by rw [Part.ctx, cpl]; exact reset_ctx c
  have runnable (c : CtxNo) : runnableCtx c p = false := by rw [runnableCtx, empty]
  have report : permitReport p = [.run, .geometry, .context, .moulder, .scanner, .endmatcher] := by
    have free : p.rst.free.length = 1024 := by rw [shape, show (_ : Part).rst.free = Part.reset.rst.free from rfl, reset_free, List.length_finRange]
    have tracker : p.ztr = trackerReset := by rw [shape]; rfl
    simp [permitReport, nobody, activeLoaded, empty, cpl, tracker, free, plannerReset, trackerReset, unmet, Config.permitSlots]
  have permit : permitNow p = p.cpl.permit := by rw [permitNow, report, cpl]; rfl
  rw [finish_of_settled settled, answerAll_idle fun l => (idle l).1, reevaluate_still permit,
    recompute_self (by rw [runnable, cpl]; rfl) (by rw [report, cpl]; rfl) permit]

theorem powerOn_eq (p : Part) :
    powerOn p = { Part.reset with lif.link := (powerOn p).lif.link } ∧ ∀ l, (powerOn p).link l = poweredLink l (p.link l).signal := by
  obtain ⟨shape, links⟩ := foldl_upIfSignal p (List.finRange 7) (List.nodup_finRange 7) (powered p) rfl fun l _ => powered_link p l
  unfold powerOn
  generalize (List.finRange 7).foldl upIfSignal (powered p) = r at shape links ⊢
  simp only [List.mem_finRange, if_true] at links
  rw [finish_powered shape fun l => by rw [links]; exact poweredLink_idle l _]
  exact ⟨shape, links⟩

/-! The reset input (11.10). -/

/-- A command that runs by `run` is nothing while the reset input stands. -/
theorem next_run_inReset {f : Part → Part} {s : State} (h : s.part.inReset = true) : next (run f) s = .next s := by
  rw [next, run_inReset f s.part h]

/-- Settles O7. -/
theorem resetInputAndPowerOn : Obligations.ResetInputAndPowerOn := by
  refine ⟨⟨fun s => rfl, fun c s h notPower notAssert => ?_⟩, fun s => ?_⟩
  · cases c with
    | powerOnReset => exact absurd rfl notPower
    | resetInputAsserted => exact absurd rfl notAssert
    | linkSignalUp l =>
      show next (signalRises l) s = _
      rw [next, signalRises, if_pos h]
      rfl
    | linkSignalLoss l =>
      show next (signalFalls l) s = _
      rw [next, signalFalls, if_pos h]
      rfl
    | _ => exact next_run_inReset h
  · obtain ⟨shape, links⟩ := powerOn_eq s.part
    have h : exec .powerOnReset s = .next ⟨powerOn s.part, s.pending⟩ := rfl
    generalize powerOn s.part = q at shape links h
    exact ⟨⟨q, s.pending⟩, h, rfl, shape, links⟩

end Sys2Proof.Machine

/-! PROOFS. Requests on a link: refused ones, received ones, and the lists they leave (11.1, 11.2, 11.5, 11.6). -/

namespace Sys2Proof.Machine

open Sys2Proof

/-! What a request command runs. -/

/-- A request is taken by the common path with its own body, LINCLR by its own. -/
theorem exec_request {c : Instr} {l : LinkNo} {code number : Nat} {payload : List Byte}
    (h : requestForm c = some (l, code, number, payload)) (s : State) :
    (∃ body, exec c s = next (run (takeRequest l code number c body)) s)
      ∨ (c = .linclr l number ∧ code = 0x19 ∧ exec c s = next (run (takeLinclr l number)) s) := by
  cases c <;> simp only [requestForm, Option.some.injEq, Prod.mk.injEq, reduceCtorEq] at h <;> obtain ⟨rfl, rfl, rfl, -⟩ := h
  case linclr => exact .inr ⟨rfl, rfl, rfl⟩
  all_goals exact .inl ⟨_, rfl⟩

theorem arrival_fresh {l : LinkNo} {p : Part} (w : Waiting) (hear : hears l p = true) (empty : (p.link l).requests = [])
    (can : canTake l p = true) : arrival l w p = .fresh := by
  simp [arrival, hear, empty, can]

theorem joinRequests_room {l : LinkNo} {p : Part} (w : Waiting) (h : (p.link l).requests.length < 8) :
    joinRequests l w p = p.setLink l { p.link l with requests := (p.link l).requests ++ [w] } := by
  simp only [joinRequests, Config.requestCap, h, if_true]

theorem popRequest_joinRequests {l : LinkNo} {p : Part} (w : Waiting) (h : (p.link l).requests = []) :
    popRequest l (joinRequests l w p) = p := by
  rw [joinRequests_room w (by rw [h]; decide), popRequest, Part.link_setLink_same, setLink_setLink, h]
  have e : ({ p.link l with requests := ([] ++ [w]).drop 1 } : LinkRec) = p.link l := by
    rw [List.nil_append, List.drop_one, List.tail_cons, ← h]
  rw [e, setLink_self]

/-- A request refused before its block sees it: one reply, and nothing else (R212). -/
theorem refused {c : Instr} {l : LinkNo} {code number : Nat} {payload : List Byte} {s : State} {st : Status} (running : Running s.part)
    (settled : Settled s.part) (form : requestForm c = some (l, code, number, payload)) (hear : hears l s.part = true)
    (empty : (s.part.link l).requests = []) (can : canTake l s.part = true) (h : refusal l code s.part = some st) :
    ∃ t : State, exec c s = .next t ∧ t.pending = s.pending ∧ Answered l code number ⟨st, []⟩ t.part ∧ After s.part t.part := by
  have answers {f : Part → Part} (hc : exec c s = next (run f) s) (hf : f s.part = composeReply l code number ⟨st, []⟩ s.part) :
      ∃ t : State, exec c s = .next t ∧ t.pending = s.pending ∧ Answered l code number ⟨st, []⟩ t.part ∧ After s.part t.part := by
    have ended := run_after f s.part running (by rw [hf]; exact settled.1)
    rw [hf] at ended
    exact ⟨⟨run f s.part, s.pending⟩, hc, rfl, ended.mem (composeReply_mem l code number ⟨st, []⟩ s.part),
      (composeReply_after l code number ⟨st, []⟩ s.part).trans ended⟩
  rcases exec_request form s with ⟨body, hc⟩ | ⟨rfl, rfl, hc⟩
  · exact answers hc (by simp only [takeRequest, arrival_fresh _ hear empty can, serve, h])
  · refine answers hc ?_
    have joined : refusal l 0x19 (joinRequests l (.request (.linclr l number)) s.part) = some st := by
      rw [← h, joinRequests_room _ (by rw [empty]; decide)]
      unfold refusal Machine.notEnrolled senderOf
      rw [Part.link_setLink_same]
    simp only [takeLinclr, arrival_fresh _ hear empty can, beginLinclr, joined, popRequest_joinRequests _ empty]

/-- Settles O12. -/
theorem refusedRequestChangesNothing : Obligations.RefusedRequestChangesNothing := by
  intro c l code number payload s running settled form hear empty can
  refine ⟨fun ⟨station, notEnrol, notEnrolled⟩ => ?_, fun allowed wrong => ?_⟩
  · exact refused running settled form hear empty can (by simp [refusal, Machine.notEnrolled, station, notEnrol, notEnrolled, codeENROL])
  · have passes : Machine.notEnrolled l code s.part = false := by
      rcases allowed with rfl | rfl | enrolled
      · simp [Machine.notEnrolled]
      · simp [Machine.notEnrolled, codeENROL]
      · simp [Machine.notEnrolled, enrolled]
    exact refused running settled form hear empty can (by simp [refusal, passes, wrong])

/-! Frames received (R203, R204). -/

theorem requestForm_fits {i : Instr} {l : LinkNo} {code number : Nat} {payload : List Byte} (w : i.wf = true)
    (h : requestForm i = some (l, code, number, payload)) : code < 256 ∧ number < 256 := by
  cases i <;> simp only [requestForm, Option.some.injEq, Prod.mk.injEq, reduceCtorEq] at h <;> obtain ⟨-, rfl, rfl, -⟩ := h <;>
    simp only [Instr.wf, Bool.and_eq_true, fits8, decide_eq_true_eq] at w <;> omega

theorem hears_iff (l : LinkNo) (p : Part) : hears l p = true ↔
    (p.link l).signal = true ∧ (p.link l).state ≠ .down ∧ (p.link l).state ≠ .incompatible := by simp [hears, and_assoc]

theorem receives_iff (l : LinkNo) (p : Part) : receives l p = true ↔ (p.link l).signal = true ∧ (p.link l).state ≠ .down := by
  simp [receives]

/-- The search goes on over no bytes: nothing is held. -/
theorem scan_nil {l : LinkNo} {p : Part} (n : Nat) (h : (p.link l).rx = []) : scan l n [] p = p := by
  cases n with
  | zero => rfl
  | succ n =>
    unfold scan
    split
    · rfl
    · have e : ({ p.link l with rx := [] } : LinkRec) = p.link l := by rw [← h]
      rw [show receive [] = .searching from rfl]
      exact (congrArg (p.setLink l) e).trans (setLink_self l p)

/-- One whole frame arrives on a link with nothing held. -/
theorem receiveBytes_whole {l : LinkNo} {p : Part} (r : receives l p = true) (empty : (p.link l).rx = []) {kind code number : Nat}
    {payload : List Byte} (hkind : kind < 256) (hcode : code < 256) (hnumber : number < 256) (hlength : payload.length < 256)
    (left : ((treatFrame l kind code number payload p).link l).rx = []) :
    receiveBytes l (frameBytes kind code number payload) p = treatFrame l kind code number payload p := by
  have whole := framesAreReceivedOrDiscarded.1 [] payload [] kind code number (by simp) hkind hcode hnumber hlength
  rw [List.nil_append, List.append_nil] at whole
  unfold receiveBytes
  simp only [empty, List.nil_append]
  rw [scan, r, whole]
  exact scan_nil _ left

theorem treatFrame_request {l : LinkNo} {p : Part} (h : hears l p = true) {code number : Nat} {payload : List Byte} :
    treatFrame l 1 code number payload p = joinRequests l (decodeRequest l code number payload) p := by
  rw [treatFrame, if_neg ((hears_iff l p).1 h).2.2, if_pos rfl]

theorem joinRequests_full {l : LinkNo} {p : Part} (w : Waiting) (h : 8 ≤ (p.link l).requests.length) :
    joinRequests l w p = frameError l p := by
  have full : ¬ (p.link l).requests.length < Config.requestCap := by simp only [Config.requestCap]; omega
  simp only [joinRequests, full, if_false]

theorem joinRequests_rx (l : LinkNo) (w : Waiting) (p : Part) : ((joinRequests l w p).link l).rx = (p.link l).rx := by
  unfold joinRequests frameError
  dsimp only
  split <;> rw [Part.link_setLink_same]

theorem bump_of_lt {n : Nat} (h : n < 4294967295) : bump n = n + 1 := by
  simp only [bump, Config.counterMax, h, if_true]

/-! The last request of a list is not answered by the Link Interface when it is a block's. -/

theorem compose_requests (n : Notice) (p : Part) (l : LinkNo) : ((compose n p).link l).requests = (p.link l).requests := by
  unfold compose sendNotice transmit
  split
  · rfl
  · next k _ =>
    dsimp only
    split <;> by_cases e : k = l <;> simp [link_setLink, e]

theorem reevaluate_requests (b : Bool) (p : Part) (l : LinkNo) : ((reevaluate b p).link l).requests = (p.link l).requests := by
  rcases reevaluate_eq b p with e | e <;> rw [e]
  · rfl
  · unfold raise
    split
    · exact compose_requests _ _ _
    · rfl

theorem answerHeads_getLast {l : LinkNo} {i : Instr} (n : Nat) (p : Part) (h : (p.link l).requests.getLast? = some (.request i)) :
    ((answerHeads l n p).link l).requests.getLast? = some (.request i) := by
  induction n generalizing p with
  | zero => exact h
  | succ n ih =>
    unfold answerHeads
    split
    · exact h
    · next w ws hw =>
      split
      · exact h
      · next own =>
        split
        · refine ih _ ?_
          have rest : ws ≠ [] := by
            rintro rfl
            rw [hw] at h
            obtain rfl : w = .request i := by simpa using h
            cases own
          rw [hw, List.getLast?_cons_of_ne_nil rest] at h
          simpa [composeReply, transmit, popRequest, hw] using h
        · exact h

theorem answerAll_getLast {l : LinkNo} {i : Instr} {p : Part} (h : (p.link l).requests.getLast? = some (.request i)) :
    ((answerAll p).link l).requests.getLast? = some (.request i) :=
  foldl_within (R := fun x y : Part => (x.link l).requests.getLast? = some (.request i) → (y.link l).requests.getLast? = some (.request i))
    (fun _ h => h) (fun f g => g ∘ f) (fun q k h => by
      by_cases e : k = l
      · subst e; exact answerHeads_getLast _ q h
      · rw [answerHeads_link_other e]; exact h) _ p h

theorem finish_getLast {l : LinkNo} {i : Instr} {p : Part} (settled : Settled p)
    (h : (p.link l).requests.getLast? = some (.request i)) : ((finish p).link l).requests.getLast? = some (.request i) := by
  rw [finish_of_settled settled, reevaluate_requests]
  exact answerAll_getLast h

/-- Settles O10. -/
theorem frameReceivedQueuesRequest : Obligations.FrameReceivedQueuesRequest := by
  have received {l : LinkNo} {i : Instr} {code number : Nat} {payload : List Byte} {p : Part} (hear : hears l p = true)
      (empty : (p.link l).rx = []) (w : i.wf = true) (form : requestForm i = some (l, code, number, payload))
      (short : payload.length < 256) :
      receiveBytes l (frameBytes 1 code number payload) p = joinRequests l (.request i) p := by
    obtain ⟨hcode, hnumber⟩ := requestForm_fits w form
    obtain ⟨signal, up, -⟩ := (hears_iff l p).1 hear
    have treated := treatFrame_request hear (code := code) (number := number) (payload := payload)
    rw [decodedRequestIsEncodedRequest i l code number payload w form] at treated
    rw [receiveBytes_whole ((receives_iff l p).2 ⟨signal, up⟩) empty (by decide) hcode hnumber short
      (by rw [treated, joinRequests_rx, empty]), treated]
  refine ⟨fun l i code number payload s running settled hear empty room w form short => ?_,
    fun l i code number payload s running settled hear empty full few w form short => ?_⟩
  · have body := (received hear empty w form short).trans (joinRequests_room _ room)
    refine ⟨⟨run (receiveBytes l (frameBytes 1 code number payload)) s.part, s.pending⟩, rfl, rfl, ?_, ?_⟩
    · rw [← body]
      exact run_after _ s.part running (by rw [body]; exact settled.1)
    · rw [show (State.mk (run (receiveBytes l (frameBytes 1 code number payload)) s.part) s.pending).part =
        run (receiveBytes l (frameBytes 1 code number payload)) s.part from rfl, run_of_running _ running, body]
      exact finish_getLast settled (by simp)
  · have body : receiveBytes l (frameBytes 1 code number payload) s.part =
        s.part.setLink l { s.part.link l with frameErrors := (s.part.link l).frameErrors + 1 } := by
      rw [received hear empty w form short, joinRequests_full _ full, frameError, bump_of_lt few]
    rw [← body]
    exact next_run_completes _ _ s rfl running (by rw [body]; exact settled.1)

end Sys2Proof.Machine

/-! PROOFS. Reception broken off, frames sent and notices dropped (11.1, 11.2). -/

namespace Sys2Proof.Machine

open Sys2Proof

/-! What a reception leaves is shorter than what it was made from (R203). -/

theorem receive_length (bytes : List Byte) :
    match receive bytes with
    | .searching => True
    | .partly held => held.length ≤ bytes.length
    | .bad rest => rest.length < bytes.length
    | .whole _ _ _ _ rest => rest.length < bytes.length := by
  have found := (List.dropWhile_suffix (fun b : Byte => b != 0xD4#8) (l := bytes)).length_le
  unfold receive
  generalize bytes.dropWhile (fun b => b != 0xD4#8) = at_marker at found
  cases at_marker with
  | nil => trivial
  | cons marker rest =>
    match rest, found with
    | [], found => exact found
    | [_], found => exact found
    | [_, _], found => exact found
    | [_, _, _], found => exact found
    | kind :: code :: number :: length :: more, found =>
      simp only [List.length_cons] at found
      by_cases few : more.length < length.toNat + 2
      · simp only [few, if_true, List.length_cons]
        exact found
      · simp only [few, if_false]
        split_ifs
        · simp only [List.length_drop]
          omega
        · simp only [List.length_cons]
          omega

/-! A link's reception, signal and state through the treatment of a frame. -/

theorem After.link_fields {p q : Part} (h : After p q) (l : LinkNo) :
    (q.link l).rx = (p.link l).rx ∧ (q.link l).signal = (p.link l).signal ∧ (q.link l).state = (p.link l).state
      ∧ (q.link l).frameErrors = (p.link l).frameErrors := by
  rw [(h.2.1 l).1]
  exact ⟨rfl, rfl, rfl, rfl⟩

theorem openBundle_blocks (b : BayNo) (o : OrderNo) (p : Part) :
    (openBundle b o p).lif = p.lif ∧ (openBundle b o p).ztr = p.ztr := by
  unfold openBundle
  split <;> exact ⟨rfl, rfl⟩

theorem tryOpening_blocks (p : Part) : (tryOpening p).lif = p.lif ∧ (tryOpening p).ztr = p.ztr :=
  foldl_within (R := fun x y : Part => y.lif = x.lif ∧ y.ztr = x.ztr) (fun _ => ⟨rfl, rfl⟩)
    (fun h k => ⟨k.1.trans h.1, k.2.trans h.2⟩) (fun q b => by
      split
      · split
        · exact ⟨rfl, rfl⟩
        · exact openBundle_blocks b _ q
      · exact ⟨rfl, rfl⟩) _ p

theorem clearStackerHolds_blocks (p : Part) : (clearStackerHolds p).lif = p.lif ∧ (clearStackerHolds p).ztr = p.ztr := by
  unfold clearStackerHolds
  dsimp only
  split
  · exact tryOpening_blocks _
  · exact ⟨rfl, rfl⟩

theorem dropOwedReply_link (l k : LinkNo) (p : Part) : (dropOwedReply l p).link k = p.link k ∧ (dropOwedReply l p).ztr = p.ztr := by
  unfold dropOwedReply
  split <;> exact ⟨rfl, rfl⟩

theorem vacate_link (l : LinkNo) (s : LinkState) (p : Part) :
    ((vacate l s p).link l).rx = (p.link l).rx ∧ ((vacate l s p).link l).signal = (p.link l).signal
      ∧ ((vacate l s p).link l).state = s ∧ (vacate l s p).ztr = p.ztr := by
  unfold vacate
  dsimp only
  generalize hx : ({ p.link l with state := s, role := none, serial := 0, tools := [], holdTimer := none, requests := [], transmit := [] } :
    LinkRec) = x
  have emptied := dropOwedReply_link l l (p.setLink l x)
  generalize dropOwedReply l (p.setLink l x) = q at emptied ⊢
  rw [Part.link_setLink_same, Part.setLink_ztr] at emptied
  have kept : ∀ b : Bool, (if b then clearStackerHolds q else q).link l = x ∧ (if b then clearStackerHolds q else q).ztr = p.ztr := by
    intro b
    split
    · obtain ⟨lif, ztr⟩ := clearStackerHolds_blocks q
      exact ⟨by rw [Part.link, lif]; exact emptied.1, ztr.trans emptied.2⟩
    · exact emptied
  obtain ⟨link, ztr⟩ := kept ((p.link l).role == some .stacker)
  generalize (if ((p.link l).role == some .stacker) = true then clearStackerHolds q else q) = r at link ztr ⊢
  obtain ⟨rx, signal, state, -⟩ := (reevaluate_after false r).link_fields l
  rw [rx, signal, state, (reevaluate_after false r).1.2.2.1, link, ← hx]
  exact ⟨rfl, rfl, rfl, ztr⟩

/-- What every step of a reception keeps: the receiver goes on taking bytes, and nothing of the tracker changes. -/
structure GoesOn (l : LinkNo) (p q : Part) : Prop where
  receives : receives l p = true → receives l q = true
  ztr : q.ztr = p.ztr

theorem GoesOn.refl (l : LinkNo) (p : Part) : GoesOn l p p := ⟨id, rfl⟩
theorem GoesOn.trans {l : LinkNo} {p q r : Part} (h : GoesOn l p q) (k : GoesOn l q r) : GoesOn l p r :=
  ⟨k.receives ∘ h.receives, k.ztr.trans h.ztr⟩

theorem GoesOn.of_link {l : LinkNo} {p q : Part} (signal : (q.link l).signal = (p.link l).signal)
    (state : (q.link l).state = (p.link l).state ∨ (q.link l).state = .incompatible) (ztr : q.ztr = p.ztr) : GoesOn l p q := by
  refine ⟨fun h => ?_, ztr⟩
  obtain ⟨on, up⟩ := (receives_iff l p).1 h
  refine (receives_iff l q).2 ⟨signal.trans on, ?_⟩
  rcases state with e | e <;> rw [e]
  · exact up
  · exact nofun

theorem frameError_goesOn (l : LinkNo) (p : Part) : GoesOn l p (frameError l p) :=
  .of_link (by simp [frameError]) (.inl (by simp [frameError])) rfl

theorem joinRequests_goesOn (l : LinkNo) (w : Waiting) (p : Part) : GoesOn l p (joinRequests l w p) := by
  unfold joinRequests
  dsimp only
  split
  · exact .of_link (by simp) (.inl (by simp)) rfl
  · exact frameError_goesOn l p

theorem goIncompatible_goesOn (l : LinkNo) (p : Part) : GoesOn l p (goIncompatible l p) := by
  obtain ⟨-, signal, state, ztr⟩ := vacate_link l .incompatible p
  exact .of_link signal (.inr state) ztr

theorem treatFrame_goesOn (l : LinkNo) (kind code number : Nat) (payload : List Byte) (p : Part) :
    GoesOn l p (treatFrame l kind code number payload p) := by
  unfold treatFrame
  split
  · exact .refl l p
  · split
    · exact joinRequests_goesOn l _ p
    · split
      · exact (frameError_goesOn l p).trans (goIncompatible_goesOn l _)
      · exact frameError_goesOn l p

/-- A scan with fuel for every byte leaves no more held than the bytes it went through (R203). -/
theorem scan_spec (l : LinkNo) (n : Nat) (bytes : List Byte) (p : Part) (fuel : bytes.length < n) (on : receives l p = true) :
    GoesOn l p (scan l n bytes p) ∧ ((scan l n bytes p).link l).rx.length ≤ bytes.length := by
  induction n generalizing bytes p with
  | zero => omega
  | succ n ih =>
    have shorter := receive_length bytes
    unfold scan
    rw [on]
    simp only [Bool.not_true, Bool.false_eq_true, if_false]
    split
    · exact ⟨.of_link (by simp) (.inl (by simp)) rfl, by simp⟩
    · next held h =>
      rw [h] at shorter
      exact ⟨.of_link (by simp) (.inl (by simp)) rfl, by simpa using shorter⟩
    · next rest h =>
      rw [h] at shorter
      have first := frameError_goesOn l p
      obtain ⟨goes, short⟩ := ih rest _ (by dsimp only at shorter; omega) (first.receives on)
      exact ⟨first.trans goes, by dsimp only at shorter; omega⟩
    · next kind code number payload rest h =>
      rw [h] at shorter
      have first := treatFrame_goesOn l kind code number payload p
      obtain ⟨goes, short⟩ := ih rest _ (by dsimp only at shorter; omega) (first.receives on)
      exact ⟨first.trans goes, by dsimp only at shorter; omega⟩

theorem discardFrame_spec {l : LinkNo} {p : Part} (on : receives l p = true) (held : (p.link l).rx ≠ []) :
    GoesOn l p (discardFrame l p) ∧ ((discardFrame l p).link l).rx.length < (p.link l).rx.length := by
  unfold discardFrame
  split
  · next h => exact absurd h held
  · next b rest h =>
    have first := frameError_goesOn l p
    obtain ⟨goes, short⟩ := scan_spec l (rest.length + 1) rest _ (Nat.lt_succ_self _) (first.receives on)
    exact ⟨first.trans goes, by rw [h, List.length_cons]; omega⟩

theorem discardHeld_spec (l : LinkNo) (n : Nat) (p : Part) (on : receives l p = true) (fuel : (p.link l).rx.length ≤ n) :
    GoesOn l p (discardHeld l n p) ∧ ((discardHeld l n p).link l).rx = [] := by
  induction n generalizing p with
  | zero => exact ⟨.refl l p, List.eq_nil_of_length_eq_zero (Nat.le_zero.1 fuel)⟩
  | succ n ih =>
    unfold discardHeld
    by_cases h : (p.link l).rx = []
    · rw [if_pos (.inl h)]
      exact ⟨.refl l p, h⟩
    · rw [if_neg (by simp [h, on])]
      obtain ⟨first, shorter⟩ := discardFrame_spec on h
      obtain ⟨goes, empty⟩ := ih _ (first.receives on) (by omega)
      exact ⟨first.trans goes, empty⟩

theorem discardHeld_idle {l : LinkNo} {p : Part} (n : Nat) (h : (p.link l).rx = []) : discardHeld l n p = p := by
  cases n with
  | zero => rfl
  | succ n => simp [discardHeld, h]

/-- A frame under way is discarded, and no marker stands behind its own (R203). -/
theorem discardFrame_last {l : LinkNo} {p : Part} {held : List Byte} (on : receives l p = true) (h : (p.link l).rx = 0xD4#8 :: held)
    (clean : 0xD4#8 ∉ held) (few : (p.link l).frameErrors < 4294967295) :
    discardFrame l p = p.setLink l { p.link l with rx := [], frameErrors := (p.link l).frameErrors + 1 } := by
  have on' := (frameError_goesOn l p).receives on
  unfold discardFrame
  simp only [h]
  rw [scan, on', receive_searching clean]
  simp only [frameError, Part.link_setLink_same, setLink_setLink, bump_of_lt few]
  rfl

/-- A frame under way is discarded, and a further part frame found behind its marker (R203). -/
theorem discardFrame_more {l : LinkNo} {p : Part} {a b : List Byte} (on : receives l p = true)
    (h : (p.link l).rx = 0xD4#8 :: (a ++ 0xD4#8 :: b)) (clean : 0xD4#8 ∉ a) (short : b.length < 4)
    (few : (p.link l).frameErrors < 4294967295) :
    discardFrame l p = p.setLink l { p.link l with rx := 0xD4#8 :: b, frameErrors := (p.link l).frameErrors + 1 } := by
  have on' := (frameError_goesOn l p).receives on
  have part : receive (a ++ 0xD4#8 :: b) = .partly (0xD4#8 :: b) := by
    rw [receive_noise clean]
    match b, short with
    | [], _ => rfl
    | [_], _ => rfl
    | [_, _], _ => rfl
    | [_, _, _], _ => rfl
  unfold discardFrame
  simp only [h]
  rw [scan, on', part]
  simp only [frameError, Part.link_setLink_same, setLink_setLink, bump_of_lt few]
  rfl

/-! Full transmit lists (R206). -/

theorem setLink_sameConditions {l : LinkNo} {x : LinkRec} {p : Part} (role : x.role = (p.link l).role)
    (state : x.state = (p.link l).state) (tools : x.tools = (p.link l).tools) : SameConditions p (p.setLink l x) := by
  refine ⟨rfl, rfl, rfl, rfl, fun k => ?_, rfl⟩
  rw [link_setLink]
  split
  · next e => subst e; exact ⟨role, state, tools⟩
  · exact ⟨rfl, rfl, rfl⟩

theorem sendNotice_full {l : LinkNo} {p : Part} (h : 56 ≤ (p.link l).transmit.length) (code : Nat) (fields : List Item) :
    sendNotice l code fields p = p.setLink l { p.link l with drops := bump (p.link l).drops } := by
  have full : Config.noticeLimit ≤ (p.link l).transmit.length := h
  simp only [sendNotice, full, if_true]

theorem compose_full {n : Notice} {p : Part} {l : LinkNo} (h : 56 ≤ (p.link l).transmit.length) :
    ((compose n p).link l).transmit = (p.link l).transmit := by
  by_cases e : destLink n.dest p = some l
  · simp only [compose, e, sendNotice_full h, Part.link_setLink_same]
  · rw [compose_link_other e]

theorem finish_transmit_full {l : LinkNo} {p : Part} (settled : Settled p) (none_waits : (p.link l).requests = [])
    (h : 56 ≤ (p.link l).transmit.length) : ((finish p).link l).transmit = (p.link l).transmit := by
  have link := answerAll_link none_waits
  rw [finish_of_settled settled, ← link]
  generalize answerAll p = q at link ⊢
  rcases reevaluate_eq false q with e | e <;> rw [e]
  · rfl
  · unfold raise
    split
    · exact compose_full (p := recompute q) (by rw [recompute_link, link]; exact h)
    · rfl

theorem reportCounts_full {p : Part} {k : Coalesce} (h : p.lif.coalesce = some k) (up : (p.link 0).state = .up)
    (full : 56 ≤ (p.link 0).transmit.length) (few : (p.link 0).drops < 4294967295) :
    reportCounts p = { p.setLink 0 { p.link 0 with drops := (p.link 0).drops + 1 } with lif.coalesce := none } := by
  simp only [reportCounts, h, cntntc, compose, destLink]
  rw [if_pos (show (({ p with lif.coalesce := none } : Part).link 0).state = .up from up)]
  dsimp only
  rw [sendNotice_full (show 56 ≤ (({ p with lif.coalesce := none } : Part).link 0).transmit.length from full)]
  rw [show (({ p with lif.coalesce := none } : Part).link 0).drops = (p.link 0).drops from rfl, bump_of_lt few]
  rfl

/-- Settles O11. -/
theorem linkLinesEmptyTheirLists : Obligations.LinkLinesEmptyTheirLists := by
  have on {l : LinkNo} {p : Part} (h : hears l p = true) : receives l p = true :=
    (receives_iff l p).2 ⟨((hears_iff l p).1 h).1, ((hears_iff l p).1 h).2.1⟩
  refine ⟨fun l held s running settled hear rx clean few => ?_, ⟨fun l s running settled hear => ?_,
    fun l a b s running settled hear rx cleanA cleanB short few => ?_⟩, fun l f rest s running settled sent => ?_,
    fun c hc k s running settled pending up full few => ?_⟩
  · have body : byteTimeout l s.part =
        s.part.setLink l { s.part.link l with rx := [], frameErrors := (s.part.link l).frameErrors + 1 } := by
      rw [byteTimeout, dropReception, rx, List.length_cons, discardHeld, if_neg (by simp [rx, on hear]),
        discardFrame_last (on hear) rx clean few, discardHeld_idle _ (by simp)]
    rw [← body]
    exact next_run_completes _ _ s rfl running (by rw [body]; exact settled.1)
  · obtain ⟨goes, empty⟩ := discardHeld_spec l _ s.part (on hear) (le_refl _)
    have ended := run_after (byteTimeout l) s.part running ((congrArg Tracker.atOnce goes.ztr).trans settled.1)
    exact ⟨⟨run (byteTimeout l) s.part, s.pending⟩, rfl, rfl, (ended.link_fields l).1.trans empty⟩
  · have body : byteTimeout l s.part =
        s.part.setLink l { s.part.link l with rx := [], frameErrors := (s.part.link l).frameErrors + 2 } := by
      have first := discardFrame_more (on hear) rx cleanA short (by omega)
      have on' : receives l (discardFrame l s.part) = true := by
        rw [first, receives, Part.link_setLink_same]; exact on hear
      have second := discardFrame_last (p := discardFrame l s.part) (held := b) on' (by rw [first]; simp) cleanB
        (by rw [first]; simp only [Part.link_setLink_same]; omega)
      rw [byteTimeout, dropReception, rx, List.length_cons, List.length_append, List.length_cons, ← Nat.add_assoc, discardHeld,
        if_neg (by simp [rx, on hear]), discardHeld, if_neg (by rw [on']; simp [first]), second, discardHeld_idle _ (by simp), first]
      simp only [Part.link_setLink_same, setLink_setLink, Nat.add_assoc]
    rw [← body]
    exact next_run_completes _ _ s rfl running (by rw [body]; exact settled.1)
  · have body : frameSent l s.part = s.part.setLink l { s.part.link l with transmit := rest } := by
      rw [frameSent, sent, List.drop_one, List.tail_cons]
    refine ⟨?_, fun none_waits still => ?_⟩
    · rw [← body]
      exact next_run_completes _ _ s rfl running settled.1
    · refine leavesFrames_of_finish (f := frameSent l) rfl running ?_
      have same : SameConditions s.part (s.part.setLink l { s.part.link l with transmit := rest }) :=
        setLink_sameConditions rfl rfl rfl
      rw [body, finish_link_still (p := s.part.setLink l { s.part.link l with transmit := rest }) settled (by simpa using none_waits) (by rw [same.permitNow, same.cpl]; exact still)]
      simp
  · have body := reportCounts_full pending up full few
    have runs : exec c s = next (run reportCounts) s := by
      rcases List.mem_pair.1 hc with rfl | rfl <;> rfl
    have settled' : Settled (reportCounts s.part) := by rw [body]; exact settled
    refine ⟨?_, fun none_waits => ?_⟩
    · rw [← body]
      exact next_run_completes _ _ s runs running settled'.1
    · have link : (reportCounts s.part).link 0 = { s.part.link 0 with drops := (s.part.link 0).drops + 1 } := by
        rw [body, show ∀ q : Part, ({ q with lif.coalesce := none } : Part).link 0 = q.link 0 from fun _ => rfl, Part.link_setLink_same]
      refine leavesFrames_of_finish runs running ?_
      rw [finish_transmit_full settled' (by rw [link]; exact none_waits) (by rw [link]; exact full), link]

end Sys2Proof.Machine

/-! PROOFS. Requests taken at once: what their bodies come to; ENROL, NTCSET, and the shortfall of an order (11.3, 11.8, 8.3). -/

namespace Sys2Proof.Machine

open Sys2Proof

/-- The part on which a request's body works: the notices that follow the reply are held back (R206). -/
def holding (p : Part) : Part := { p with lif.deferred := some [] }

theorem holding_after (p : Part) : After p (holding p) := after_deferred p (some [])

/-- A request taken at once, its body's answer and part known up to frames and PERMIT's own fields. -/
theorem request_replies_after {c : Instr} {l : LinkNo} {code number : Nat} {body : Part → Reply × Part} {s : State} {r : Reply}
    {e : Part} (hc : exec c s = next (run (takeRequest l code number c body)) s) (running : Running s.part) (settled : Settled e)
    (h : Takes l code s.part) (reply : (body (holding s.part)).1 = r) (part : After e (body (holding s.part)).2) :
    Replies c l code number s r e := by
  obtain ⟨t, ht, pending, answered, behind⟩ := request_replies c l code number body s (body (holding s.part)).1
    (body (holding s.part)).2 hc running h rfl (part.atOnce.trans settled.1)
  exact ⟨t, ht, pending, reply ▸ answered, part.trans behind⟩

/-- A request that changes nothing of the part. -/
theorem request_replies_still {c : Instr} {l : LinkNo} {code number : Nat} {body : Part → Reply × Part} {s : State} {r : Reply}
    (hc : exec c s = next (run (takeRequest l code number c body)) s) (running : Running s.part) (settled : Settled s.part)
    (h : Takes l code s.part) (body_eq : body (holding s.part) = (r, holding s.part)) : Replies c l code number s r s.part :=
  request_replies_after hc running settled h (by rw [body_eq]) (by rw [body_eq]; exact holding_after _)

/-! NTCSET (R215). -/

theorem clamp_nearest {lo hi : Nat} (h : lo ≤ hi) (v : Nat) : clamp lo hi v = if v < lo then lo else if hi < v then hi else v := by
  unfold clamp
  split_ifs <;> omega

theorem applySettings_after (t : Settings) {p q : Part} (h : After p q) : After (applySettings t p) (applySettings t q) := by
  obtain ⟨⟨h1, h2, h3, h4, h5, h6, h7⟩, links, lif⟩ := h
  refine ⟨⟨h1, ?_, h3, ?_, h5, h6, h7⟩, links, ?_⟩
  · simp only [applySettings, h2]
  · simp only [applySettings, h4]
  · simp only [applySettings]
    rw [lif]

/-- Settles O38. -/
theorem ntcsetClampsSettings : Obligations.NtcsetClampsSettings := by
  intro number n s running settled h nearest m
  have clamped : Settings.clamped n = m := by
    simp only [Settings.clamped, m, nearest, clamp_nearest (show 1 ≤ 100 by decide), clamp_nearest (Nat.zero_le _),
      clamp_nearest (show 10 ≤ 200 by decide)]
  refine request_replies_after (body := serveNtcset n) (e := applySettings m s.part) rfl running settled h ?_ ?_
  · simp only [serveNtcset, clamped]; rfl
  · simp only [serveNtcset, clamped]
    exact applySettings_after m (holding_after s.part)

/-! ENROL (R208). -/

theorem roleOf_ctorIdx (r : Role) : roleOf r.ctorIdx = some r := by cases r <;> rfl

theorem enrolRole_ok {r : Role} {serial : Nat} {tools : List Nat} (serialOk : serial ≠ 0) (few : tools.length ≤ 8) (noZero : 0 ∉ tools)
    (once : tools.Nodup) (needed : (r = .moulder ∨ r = .endmatcher) → tools ≠ []) : enrolRole r.ctorIdx serial tools = some r := by
  have inRange : ¬ (serial = 0 ∨ 8 < tools.length ∨ tools.contains 0 = true ∨ ¬ tools.Nodup) := by
    simp only [List.contains_iff_mem]
    rintro (h | h | h | h)
    · exact serialOk h
    · omega
    · exact noZero h
    · exact h once
  have enough : (needsTools r && tools.isEmpty) = false := by
    cases r <;> simp [needsTools] <;> exact needed (by simp)
  rw [enrolRole, roleOf_ctorIdx]
  simp only [inRange, enough, if_false, Bool.false_eq_true]

/-- The link enrolled, the part otherwise as it was. -/
def enrolled (l : LinkNo) (r : Role) (serial : Nat) (tools : List Nat) (p : Part) : Part :=
  p.setLink l { p.link l with state := .enrolled, role := some r, serial := serial, tools := tools, holdTimer := none }

theorem enrolLink_after (l : LinkNo) (r : Role) (serial : Nat) (tools : List Nat) (p : Part) :
    After (enrolled l r serial tools p) (enrolLink l r serial tools (holding p)) :=
  (holding_after (enrolled l r serial tools p)).trans (reevaluate_after false _)

theorem enrolDone_eq (l : LinkNo) (r : Role) (serial : Nat) (tools : List Nat) (p : Part) :
    enrolDone l r (enrolLink l r serial tools (holding p)) = ⟨.done, [.u8 l.val, .u8 r.ctorIdx,
      .u8 (if runnableCtx p.cpl.active (enrolled l r serial tools p) then 1 else 0),
      .u8 (if permitNow (enrolled l r serial tools p) then 1 else 0)]⟩ := by
  unfold enrolDone enrolLink
  rw [reevaluate_cpl]
  rfl

/-- Settles O37. -/
theorem enrolTakesRole : Obligations.EnrolTakesRole := by
  intro l number serial r tools s running settled h x e reply serialOk few noZero once needed
  have role := enrolRole_ok serialOk few noZero once needed
  have taken (hbody : serveEnrol l r.ctorIdx serial tools (holding s.part) =
      (enrolDone l r (enrolLink l r serial tools (holding s.part)), enrolLink l r serial tools (holding s.part))) :
      Replies (.enrol l number r.ctorIdx serial tools) l 0x01 number s reply e :=
    request_replies_after (body := serveEnrol l r.ctorIdx serial tools) rfl running settled h
      (by rw [hbody]; exact enrolDone_eq l r serial tools s.part) (by rw [hbody]; exact enrolLink_after l r serial tools s.part)
  refine ⟨fun waiting free => taken ?_, fun notWaiting sameRole sameSerial => taken ?_, fun k waiting held => ?_⟩
  · simp only [serveEnrol, role]
    rw [if_pos (show ((holding s.part).link l).state = .waiting from waiting), show roleLink r (holding s.part) = none from free]
  · simp only [serveEnrol, role]
    rw [if_neg (show ((holding s.part).link l).state ≠ .waiting from notWaiting)]
    simp only [show ((holding s.part).link l).role = some r from sameRole,
      show ((holding s.part).link l).serial = serial from sameSerial, and_self, if_true]
  · refine request_replies_still (body := serveEnrol l r.ctorIdx serial tools) rfl running settled h ?_
    simp only [serveEnrol, role]
    rw [if_pos (show ((holding s.part).link l).state = .waiting from waiting), show roleLink r (holding s.part) = some k from held]
    rfl

/-! The effective shortfall (R156). -/

theorem hasOpen_iff (o : OrderNo) (p : Part) :
    hasOpen o p = true ↔ ∃ b : BayNo, ∃ u ∈ (p.bay b).bundle, u.slot = o ∧ (p.bay b).state = .opened := by
  simp only [hasOpen, List.any_eq_true, List.mem_finRange, true_and, Bool.and_eq_true, beq_iff_eq, holdsOrder]
  refine exists_congr fun b => ?_
  cases (p.bay b).bundle <;> simp

/-- Settles O48. -/
theorem shortfallIsClamped : Obligations.ShortfallIsClamped := by
  intro o r p
  refine ⟨fun ⟨all, none_open⟩ => ?_, fun some_open => ?_, ?_⟩
  · have closed : hasOpen o p = false := by
      rw [← Bool.not_eq_true, hasOpen_iff]
      exact fun ⟨b, u, hu, ho, hs⟩ => none_open b u hu ho hs
    simp [shortfall, all, closed]
  · have counted : ¬ ((decide (r.opened = r.ordered) && !hasOpen o p) = true) := by
      rw [← hasOpen_iff] at some_open
      rcases some_open with h | h <;> simp [h]
    simp only [shortfall]
    rw [if_neg (by simpa using counted), orderedArea]
    omega
  · unfold shortfall orderedArea
    split
    · exact Nat.zero_le _
    · exact Nat.sub_le _ _

end Sys2Proof.Machine

/-! PROOFS. Signal, link reset and the completion of a LINE CLEAR (11.3, 11.4, 2.10). -/

namespace Sys2Proof.Machine

open Sys2Proof

/-! A link that is not the supervisor's in UP takes no LINSTA. -/

theorem reevaluate_link_unsent {l : LinkNo} {b : Bool} {p : Part} (h : l = 0 → (p.link 0).state ≠ .up) :
    (reevaluate b p).link l = p.link l := by
  have elsewhere : destLink .supervisor (recompute p) ≠ some l := by
    unfold destLink
    dsimp only
    split
    · next up => exact fun e => h (Option.some.inj e).symm up
    · exact nofun
  rcases reevaluate_eq b p with e | e <;> rw [e]
  · rfl
  · unfold raise
    split
    · exact compose_link_other elsewhere
    · rfl

theorem finish_link_unsent {l : LinkNo} {p : Part} (h : l = 0 → (p.link 0).state ≠ .up) (settled : Settled p)
    (none_waits : (p.link l).requests = []) : (finish p).link l = p.link l := by
  have link := answerAll_link none_waits
  rw [finish_of_settled settled, reevaluate_link_unsent, link]
  intro e
  subst e
  rw [link]
  exact h rfl

/-- A re-evaluation leaves PERMIT as a further one would find it. -/
theorem reevaluate_idem (b : Bool) (p : Part) : permitNow (reevaluate b p) = (reevaluate b p).cpl.permit := by
  have same := reevaluate_sameConditions b p
  rw [same.permitNow, same.cpl, show (recompute p).cpl.permit = permitNow p from rfl,
    show permitNow (recompute p) = ((permitReport p).isEmpty && (p.lif.clear.isNone || permitNow p)) from rfl, permitNow]
  generalize (permitReport p).isEmpty = met
  generalize p.lif.clear.isNone = none_waits
  cases met <;> cases none_waits <;> rfl

theorem reevaluate_deferred {b : Bool} {p : Part} (h : Settled p) : Settled (reevaluate b p) :=
  ⟨(reevaluate_after b p).atOnce.trans h.1, reevaluate_deferred_none b p h.2⟩

theorem After.setLink {p q : Part} (h : After p q) (l : LinkNo) {x y : LinkRec} (k : SameLink x y) :
    After (p.setLink l x) (q.setLink l y) := by
  obtain ⟨⟨h1, h2, h3, h4, h5, h6, h7⟩, links, lif⟩ := h
  refine ⟨⟨h1, h2, h3, h4, h5, h6, h7⟩, fun m => ?_, ?_⟩
  · rw [link_setLink, link_setLink]
    split
    · exact k
    · exact links m
  · rw [Part.setLink, Part.setLink, lif]

/-! Links vacated (R210). -/

/-- A link without role, serial, tool list and lists, in a state. -/
def vacated (x : LinkRec) (s : LinkState) : LinkRec :=
  { x with state := s, role := none, serial := 0, tools := [], holdTimer := none, requests := [], transmit := [] }

theorem dropOwedReply_idle {l : LinkNo} {p : Part} (h : l = 0 → p.lif.clear = none) : dropOwedReply l p = p := by
  unfold dropOwedReply
  split
  · next e => rw [h e, Option.map_none, ← h e]
  · rfl

theorem vacate_link_eq {l : LinkNo} {s : LinkState} (h : s ≠ .up) (p : Part) : (vacate l s p).link l = vacated (p.link l) s := by
  unfold vacate
  dsimp only
  have emptied := (dropOwedReply_link l l (p.setLink l (vacated (p.link l) s))).1
  rw [Part.link_setLink_same] at emptied
  rw [show ({ p.link l with state := s, role := none, serial := 0, tools := [], holdTimer := none, requests := [], transmit := [] } :
    LinkRec) = vacated (p.link l) s from rfl]
  generalize dropOwedReply l (p.setLink l (vacated (p.link l) s)) = q at emptied ⊢
  have kept : (if (p.link l).role == some .stacker then clearStackerHolds q else q).link l = vacated (p.link l) s := by
    split
    · rw [Part.link, (clearStackerHolds_blocks q).1]; exact emptied
    · exact emptied
  generalize (if (p.link l).role == some .stacker then clearStackerHolds q else q) = r at kept ⊢
  rw [reevaluate_link_unsent fun e => by subst e; rw [kept]; exact h, kept]

/-- A link other than the STACKER's vacated: PERMIT is re-evaluated, and nothing else changes. -/
theorem vacate_eq {l : LinkNo} {p : Part} (s : LinkState) (h : (p.link l).role ≠ some .stacker) (owed : l = 0 → p.lif.clear = none) :
    vacate l s p = reevaluate false (p.setLink l (vacated (p.link l) s)) := by
  unfold vacate
  dsimp only
  rw [if_neg (by simpa using h)]
  exact congrArg (reevaluate false) (dropOwedReply_idle (p := p.setLink l (vacated (p.link l) s)) owed)

theorem vacate_after {l : LinkNo} {p : Part} (s : LinkState) (h : (p.link l).role ≠ some .stacker) (owed : l = 0 → p.lif.clear = none) :
    After (p.setLink l (vacated (p.link l) s)) (vacate l s p) := by
  rw [vacate_eq s h owed]
  exact reevaluate_after false _

/-- The STACKER's link vacated: its hold flags are cleared with it; here no IDLE bay is freed. -/
theorem vacate_stacker_after {l : LinkNo} {p : Part} (s : LinkState) (h : (p.link l).role = some .stacker) (station : l ≠ 0)
    (busy : ∀ b : BayNo, (p.bay b).state ≠ .idle) :
    After (({ p with bas := p.bas.map fun b => { b with staHold := false } } : Part).setLink l (vacated (p.link l) s)) (vacate l s p) := by
  have e : vacate l s p = reevaluate false
      (({ p with bas := p.bas.map fun b => { b with staHold := false } } : Part).setLink l (vacated (p.link l) s)) := by
    unfold vacate
    dsimp only
    rw [if_pos (by simpa using h)]
    refine congrArg (reevaluate false) ?_
    have idle := dropOwedReply_idle (l := l) (p := p.setLink l (vacated (p.link l) s)) fun e => absurd e station
    rw [show ({ p.link l with state := s, role := none, serial := 0, tools := [], holdTimer := none, requests := [], transmit := [] } :
      LinkRec) = vacated (p.link l) s from rfl, idle, clearStackerHolds]
    have none_freed : ((List.finRange 8).any fun b => ((p.setLink l (vacated (p.link l) s)).bay b).staHold
        && !((p.setLink l (vacated (p.link l) s)).bay b).supHold && ((p.setLink l (vacated (p.link l) s)).bay b).state == .idle) = false := by
      rw [List.any_eq_false]
      exact fun b _ => by simp [busy b]
    simp only [none_freed]
    rfl
  rw [e]
  exact reevaluate_after false _

/-- What a link reset makes of its link. -/
def resetLink (l : LinkNo) (hold : Nat) (x : LinkRec) : LinkRec :=
  let y := vacated x .down
  if x.signal then { y with state := .waiting, transmit := [⟨.notice, 0x80, 0, annc l 1 hold⟩] } else y

theorem linkReset_eq {l : LinkNo} {p : Part} (station : l ≠ 0) :
    linkReset l p = (vacate l .down p).setLink l (resetLink l (vacate l .down p).lif.hold (p.link l)) := by
  have link : (vacate l .down p).link l = vacated (p.link l) .down := vacate_link_eq (s := .down) nofun p
  unfold linkReset resetLink
  simp only [link, vacated]
  split
  · next on =>
    rw [signalUp_eq (by rw [link]; simp [vacated]), link, if_neg station]
    simp [vacated]
  · next off =>
    rw [show ({ p.link l with state := .down, role := none, serial := 0, tools := [], holdTimer := none, requests := [], transmit := [] } :
      LinkRec) = vacated (p.link l) .down from rfl, ← link, setLink_self]

/-- Link reset from what its vacating comes to: DOWN, or WAITING with signal present and ANNC sent. -/
theorem linkReset_after {l : LinkNo} {p e : Part} (station : l ≠ 0) (h : After (e.setLink l (vacated (p.link l) .down)) (vacate l .down p))
    (hold : e.lif.hold = p.lif.hold) : After (e.setLink l (resetLink l p.lif.hold (p.link l))) (linkReset l p)
      ∧ (linkReset l p).link l = resetLink l p.lif.hold (p.link l) := by
  have held : (vacate l .down p).lif.hold = p.lif.hold := by rw [h.2.2]; exact hold
  rw [linkReset_eq station, held]
  have moved := h.setLink l (.refl (resetLink l p.lif.hold (p.link l)))
  rw [setLink_setLink] at moved
  exact ⟨moved, Part.link_setLink_same _ _ _⟩

theorem vacate_settled {l : LinkNo} {s : LinkState} {p : Part} (h : Settled p) : Settled (vacate l s p) := by
  unfold vacate
  dsimp only
  refine reevaluate_deferred ?_
  have dropped (x : LinkRec) : Settled (dropOwedReply l (p.setLink l x)) := by
    unfold dropOwedReply
    split <;> exact h
  split
  · rw [Settled, (clearStackerHolds_blocks _).1, (clearStackerHolds_blocks _).2]
    exact dropped _
  · exact dropped _

/-! Signal (R207, R209, R211). -/

theorem exec_signalUp {l : LinkNo} {s : State} (r : Running s.part) : exec (.linkSignalUp l) s = next (run (gainSignal l)) s := by
  show next (signalRises l) s = _
  rw [next, signalRises, if_neg (by rw [show s.part.inReset = false from r]; exact Bool.false_ne_true), next]

theorem exec_signalLoss {l : LinkNo} {s : State} (r : Running s.part) : exec (.linkSignalLoss l) s = next (run (loseSignal l)) s := by
  show next (signalFalls l) s = _
  rw [next, signalFalls, if_neg (by rw [show s.part.inReset = false from r]; exact Bool.false_ne_true), next]

theorem gainSignal_on {l : LinkNo} {p : Part} (h : (p.link l).signal = true) : gainSignal l p = p := by simp [gainSignal, h]

theorem gainSignal_down {l : LinkNo} {p : Part} (off : (p.link l).signal = false) (down : (p.link l).state = .down)
    (room : (p.link l).transmit.length < 56) :
    gainSignal l p = p.setLink l { p.link l with
      signal := true
      state := if l = 0 then .up else .waiting
      transmit := (p.link l).transmit ++ [⟨.notice, 0x80, 0, annc l 1 p.lif.hold⟩] } := by
  simp only [gainSignal, off, Bool.false_eq_true, if_false, Part.link_setLink_same, down]
  rw [signalUp_eq (by simpa using room), Part.link_setLink_same, setLink_setLink, setLink_hold]

theorem gainSignal_holding {l : LinkNo} {p : Part} {r : Role} (off : (p.link l).signal = false) (held : (p.link l).state = .holding)
    (role : (p.link l).role = some r) (room : (p.link l).transmit.length < 56) :
    gainSignal l p = p.setLink l { p.link l with
      signal := true
      transmit := (p.link l).transmit ++ [⟨.notice, 0x80, 0, [.u32 0x464C0014, .u8 l.val, .u8 3, .u8 1, .u8 r.ctorIdx, .u8 1,
        .u32 (p.link l).serial, .u16 p.lif.hold]⟩] } := by
  have state : ((p.setLink l { p.link l with signal := true }).link l).state = .holding := by simp [held]
  have items : anncItems l (p.setLink l { p.link l with signal := true }) = [.u32 0x464C0014, .u8 l.val, .u8 3, .u8 1, .u8 r.ctorIdx, .u8 1,
        .u32 (p.link l).serial, .u16 p.lif.hold] := by
    simp [anncItems, held, role, optItems, Config.identity, linkStateItem, linkStateNo, roleItem]
  rw [gainSignal, if_neg (by rw [off]; exact Bool.false_ne_true)]
  simp only [state]
  rw [announce, items, sendNotice_room (by simpa using room), Part.link_setLink_same, setLink_setLink, codeANNC]

theorem gainSignal_incompatible {l : LinkNo} {p : Part} (off : (p.link l).signal = false) (h : (p.link l).state = .incompatible) :
    gainSignal l p = p.setLink l { p.link l with signal := true } := by
  simp only [gainSignal, off, Bool.false_eq_true, if_false, Part.link_setLink_same, h]

/-- What signal loss makes of a link with nothing held in reception (R206, R209). -/
def lostLink (l : LinkNo) (hold : Nat) (x : LinkRec) : LinkRec :=
  { x with
    signal := false
    state := lossState l x.state
    holdTimer := if x.state == .enrolled then some hold else x.holdTimer
    requests := []
    transmit := [] }

theorem loseSignal_eq {l : LinkNo} {p : Part} (on : (p.link l).signal = true) (rx : (p.link l).rx = []) :
    let q := reevaluate false (dropOwedReply l (p.setLink l (lostLink l p.lif.hold (p.link l))))
    loseSignal l p = if (p.link l).state == .enrolled && q.lif.hold == 0 then linkReset l q else q := by
  have record : ({ p.link l with
      signal := false
      state := lossState l (p.link l).state
      holdTimer := if (p.link l).state == .enrolled then some p.lif.hold else (p.link l).holdTimer
      rx := []
      requests := []
      transmit := [] } : LinkRec) = lostLink l p.lif.hold (p.link l) := by
    rw [lostLink, ← rx]
  simp only [loseSignal, on, Bool.not_true, Bool.false_eq_true, if_false, dropReception_idle rx, record]

theorem lossState_ne_up (l : LinkNo) (s : LinkState) : lossState l s ≠ .up := by
  cases s with
  | incompatible => simp only [lossState]; split <;> simp
  | _ => simp [lossState]

/-- Whatever the link, its loss leaves it with empty lists and not in UP, and the tracker as it was. -/
theorem loseSignal_link {l : LinkNo} {p : Part} (on : (p.link l).signal = true) (rx : (p.link l).rx = []) (settled : Settled p) :
    ((loseSignal l p).link l).transmit = [] ∧ ((loseSignal l p).link l).requests = [] ∧ ((loseSignal l p).link l).state ≠ .up
      ∧ Settled (loseSignal l p) := by
  have dropped := (dropOwedReply_link l l (p.setLink l (lostLink l p.lif.hold (p.link l)))).1
  rw [Part.link_setLink_same] at dropped
  have settled' : Settled (dropOwedReply l (p.setLink l (lostLink l p.lif.hold (p.link l)))) := by
    unfold dropOwedReply
    split <;> exact settled
  rw [loseSignal_eq on rx]
  generalize dropOwedReply l (p.setLink l (lostLink l p.lif.hold (p.link l))) = r at dropped settled' ⊢
  have link : (reevaluate false r).link l = lostLink l p.lif.hold (p.link l) := by
    rw [reevaluate_link_unsent fun e => by subst e; rw [dropped]; exact lossState_ne_up _ _, dropped]
  have settled'' := reevaluate_deferred (b := false) settled'
  generalize reevaluate false r = q at link settled'' ⊢
  split
  · have off : ((vacate l .down q).link l).signal = false := by rw [vacate_link_eq (s := .down) nofun, link]; rfl
    have reset : linkReset l q = vacate l .down q := by simp [linkReset, off]
    rw [reset, vacate_link_eq (s := .down) nofun]
    exact ⟨rfl, rfl, nofun, vacate_settled settled''⟩
  · rw [link]
    exact ⟨rfl, rfl, lossState_ne_up _ _, settled''⟩

/-- A link that is not ENROLLED, or with a hold time above 0, is only marked lost. -/
theorem loseSignal_after {l : LinkNo} {p : Part} (on : (p.link l).signal = true) (rx : (p.link l).rx = [])
    (owed : l = 0 → p.lif.clear = none) (stays : (p.link l).state = .enrolled → 0 < p.lif.hold) :
    loseSignal l p = reevaluate false (p.setLink l (lostLink l p.lif.hold (p.link l))) := by
  rw [loseSignal_eq on rx, dropOwedReply_idle (p := p.setLink l (lostLink l p.lif.hold (p.link l))) owed, if_neg]
  rw [(reevaluate_after false _).2.2]
  intro h
  simp only [Bool.and_eq_true, beq_iff_eq, setLink_hold] at h
  exact absurd h.2 (Nat.pos_iff_ne_zero.1 (stays h.1))

/-- LINSTA's fields after a re-evaluation (R72, R213). -/
theorem linsta_fields (p : Part) : (linsta (recompute p)).fields =
    .u8 (if permitNow p then 1 else 0) :: .u8 (permitReport p).length :: (permitReport p).map (fun c => .u8 c.ctorIdx)
      ++ faultItems p.ztr.fault := by
  have entries (cs : List PermitCond) : (cs.map fun c => [Item.u8 c.ctorIdx]).flatten = cs.map fun c => Item.u8 c.ctorIdx := by
    induction cs with
    | nil => rfl
    | cons c cs ih => rw [List.map_cons, List.flatten_cons, ih]; rfl
  unfold linsta listItems flagItem
  dsimp only
  rw [entries, List.length_map]
  rfl

/-- A re-evaluation that changes PERMIT adds one LINSTA to link 0. -/
theorem reevaluate_link_changed {p : Part} (now : p.lif.deferred = none) (changed : permitNow p ≠ p.cpl.permit)
    (up : (p.link 0).state = .up) (room : (p.link 0).transmit.length < 56) :
    (reevaluate false p).link 0 = { p.link 0 with transmit := (p.link 0).transmit
      ++ [⟨.notice, 0x85, 0, (linsta (recompute p)).fields⟩] } := by
  have composed := compose_supervisor (p := recompute p) (by rw [recompute_link]; exact up)
    (by rw [recompute_link]; exact room) 0x85 (linsta (recompute p)).fields
  rw [recompute_link] at composed
  rw [reevaluate_changed changed, raise_now ((recompute_deferred p).trans now),
    show linsta (recompute p) = ⟨.supervisor, 0x85, (linsta (recompute p)).fields⟩ from rfl, composed, Part.link_setLink_same]

theorem faultItems_eq (f : Option FaultCause) : faultItems f = match f with
    | none => [.u8 0, .u8 0, .u8 0]
    | some (.overflow z) => [.u8 1, .u8 1, .u8 0, .u8 1, .u8 z.ctorIdx]
    | some .doubleDamage => [.u8 1, .u8 1, .u8 1, .u8 0] := by
  rcases f with _ | (z | _) <;> rfl

/-- A body that ends in a re-evaluation that changes PERMIT reports it once. -/
theorem leavesFrames_reevaluated {c : Instr} {f : Part → Part} {s : State} {e : Part} (hc : exec c s = next (run f) s)
    (r : Running s.part) (body : f s.part = reevaluate false e) (settled : Settled e) (changed : permitNow e ≠ e.cpl.permit)
    (up : (e.link 0).state = .up) (room : (e.link 0).transmit.length < 56) (none_waits : (e.link 0).requests = []) :
    LeavesFrames c s 0 ((e.link 0).transmit ++ [⟨.notice, 0x85, 0, (linsta (recompute e)).fields⟩]) := by
  have sent := reevaluate_link_changed settled.2 changed up room
  refine leavesFrames_of_finish hc r ?_
  rw [body, finish_link_still (reevaluate_deferred settled) (by rw [sent]; exact none_waits) (reevaluate_idem false e), sent]

/-- Settles O36. -/
theorem signalMovesLinkState : Obligations.SignalMovesLinkState := by
  have rises {l : LinkNo} {s : State} {e : Part} (running : Running s.part) (settled : Settled e)
      (h : gainSignal l s.part = e) : Completes (.linkSignalUp l) s e := by
    rw [← h] at settled ⊢
    exact next_run_completes _ _ s (exec_signalUp running) running settled.1
  have falls {l : LinkNo} {s : State} {x : LinkRec} (running : Running s.part) (settled : Settled s.part)
      (h : loseSignal l s.part = reevaluate false (s.part.setLink l x)) : Completes (.linkSignalLoss l) s (s.part.setLink l x) := by
    have behind : After (s.part.setLink l x) (loseSignal l s.part) := by rw [h]; exact reevaluate_after false _
    have ended := run_after (loseSignal l) s.part running (behind.atOnce.trans settled.1)
    exact ⟨⟨run (loseSignal l) s.part, s.pending⟩, exec_signalLoss running, rfl, behind.trans ended⟩
  have empties {l : LinkNo} {s : State} (running : Running s.part) (settled : Settled s.part) (on : (s.part.link l).signal = true)
      (rx : (s.part.link l).rx = []) : LeavesFrames (.linkSignalLoss l) s l [] := by
    obtain ⟨transmit, requests, state, settled'⟩ := loseSignal_link on rx settled
    refine leavesFrames_of_finish (exec_signalLoss running) running ?_
    rw [finish_link_unsent (fun e => by subst e; exact state) settled' requests, transmit]
  refine ⟨fun l s running settled => ?_, fun l s running settled => ?_, fun l s running settled => ?_⟩
  · intro x annc
    exact ⟨fun off down room => rises running settled (gainSignal_down off down room),
      fun r off held role room => rises running settled (gainSignal_holding off held role room),
      fun on => rises running settled (gainSignal_on on)⟩
  · intro x y on rx
    have lost (owed : l = 0 → s.part.lif.clear = none) (stays : x.state = .enrolled → 0 < s.part.lif.hold) :=
      falls running settled (loseSignal_after on rx owed stays)
    refine ⟨fun _ => empties running settled on rx, fun station enrolled hold => ?_, fun station waiting => ?_, fun sup up none_waits => ?_⟩
    · have e : lostLink l s.part.lif.hold x = { y with state := .holding, holdTimer := some s.part.lif.hold } := by
        simp [lostLink, enrolled, lossState, y]
      rw [← e]
      exact lost (fun z => absurd z station) fun _ => hold
    · have e : lostLink l s.part.lif.hold x = { y with state := .down } := by simp [lostLink, waiting, lossState, y]
      rw [← e]
      exact lost (fun z => absurd z station) fun z => by rw [waiting] at z; cases z
    · have e : lostLink l s.part.lif.hold x = { y with state := .down } := by simp [lostLink, up, lossState, y]
      rw [← e]
      exact lost (fun _ => none_waits) fun z => by rw [up] at z; cases z
  · intro x y e fault rx
    refine ⟨fun station on enrolled hold permit falls up room none_waits => ?_, fun incompatible on owed => ⟨?_, empties running settled on rx⟩,
      fun incompatible off => ⟨rises running settled (gainSignal_incompatible off incompatible), fun none_waits => ?_⟩⟩
    · have record : lostLink l s.part.lif.hold x = { y with state := .holding, holdTimer := some s.part.lif.hold } := by
        simp [lostLink, enrolled, lossState, y]
      have body := loseSignal_after on rx (fun z => absurd z station) fun _ => hold
      rw [show s.part.link l = x from rfl, record] at body
      have link : e.link 0 = s.part.link 0 := Part.link_setLink_other _ _ _ _ station
      have fault_stands : e.ztr.fault = s.part.ztr.fault := rfl
      have stood : e.cpl.permit = s.part.cpl.permit := rfl
      have sent := leavesFrames_reevaluated (e := e) (exec_signalLoss running) running body settled
        (by rw [falls, stood, permit]; exact Bool.false_ne_true) (by rw [link]; exact up) (by rw [link]; exact room)
        (by rw [link]; exact none_waits)
      rw [linsta_fields, falls, faultItems_eq, link, fault_stands] at sent
      exact sent
    · have record : lostLink l s.part.lif.hold x = { y with state := if l = 0 then .down else .incompatible } := by
        simp [lostLink, incompatible, lossState, y]
      rw [← record]
      exact falls running settled (loseSignal_after on rx owed fun z => by
        rw [show (s.part.link l).state = .incompatible from incompatible] at z; cases z)
    · refine leavesFrames_of_finish (exec_signalUp running) running ?_
      rw [gainSignal_incompatible off incompatible]
      have link : (s.part.setLink l { x with signal := true }).link l = { x with signal := true } := Part.link_setLink_same _ _ _
      rw [finish_link_unsent (p := s.part.setLink l { x with signal := true })
        (fun z => by subst z; rw [link]; exact fun u => by rw [show x.state = .up from u] at incompatible; cases incompatible)
        settled (by rw [link]; exact none_waits), link]

end Sys2Proof.Machine

/-! PROOFS. What a request's end adds to a link: its reply, then the notices it raised (11.2); link resets and the completion of a LINE
CLEAR (11.3, 11.4, 2.10). -/

namespace Sys2Proof.Machine

open Sys2Proof

/-! Notices held back until the reply. -/

/-- The LINSTA that a re-evaluation holds back behind a reply. -/
def owedLinsta (p : Part) : List Notice := if permitNow p = p.cpl.permit then [] else [linsta (recompute p)]

theorem reevaluate_deferring {p : Part} {d : List Notice} (h : p.lif.deferred = some d) :
    reevaluate false p = { recompute p with lif.deferred := some (d ++ owedLinsta p) } := by
  by_cases still : permitNow p = p.cpl.permit
  · rw [reevaluate_still still, owedLinsta, if_pos still, List.append_nil, ← h]
    rfl
  · rw [reevaluate_changed still, raise_later ((recompute_deferred p).trans h), owedLinsta, if_neg still]

theorem composeAll_cpl (ns : List Notice) (p : Part) : (composeAll ns p).cpl = p.cpl :=
  foldl_within (R := fun x y : Part => y.cpl = x.cpl) (fun _ => rfl) (fun h k => k.trans h) (fun q n => compose_cpl n q) ns p

theorem composeAll_requests (ns : List Notice) (p : Part) (l : LinkNo) : ((composeAll ns p).link l).requests = (p.link l).requests :=
  foldl_within (R := fun x y : Part => (y.link l).requests = (x.link l).requests) (fun _ => rfl) (fun h k => k.trans h)
    (fun q n => compose_requests n q l) ns p

/-- A request's part behind its reply, before its notices are composed. -/
def replied (l : LinkNo) (code number : Nat) (r : Reply) (q : Part) : Part :=
  { composeReply l code number r (recompute q) with lif.deferred := none }

theorem replied_link_same (l : LinkNo) (code number : Nat) (r : Reply) (q : Part) : (replied l code number r q).link l =
    { q.link l with transmit := (q.link l).transmit ++ [⟨.reply, code, number, .u8 (statusCode r.status) :: r.fields⟩] } :=
  Part.link_setLink_same _ _ _

theorem replied_link_other {l k : LinkNo} (h : l ≠ k) (code number : Nat) (r : Reply) (q : Part) :
    (replied l code number r q).link k = q.link k := Part.link_setLink_other _ _ _ _ h

/-- What a request taken at once leaves on a link on which no further request waits: the frames of its reply and of its notices. -/
theorem request_link {c : Instr} {l k : LinkNo} {code number : Nat} {body : Part → Reply × Part} {s : State} {r : Reply}
    {q : Part} {d : List Notice} (hc : exec c s = next (run (takeRequest l code number c body)) s) (running : Running s.part)
    (h : Takes l code s.part) (hb : body (holding s.part) = (r, q)) (none_at_once : q.ztr.atOnce = []) (hd : q.lif.deferred = some d)
    (none_waits : (q.link k).requests = []) :
    ∃ t : State, exec c s = .next t ∧ t.part.link k =
      (composeAll (noticeOrder (d ++ owedLinsta q)) (replied l code number r q)).link k := by
  refine ⟨⟨run (takeRequest l code number c body) s.part, s.pending⟩, hc, ?_⟩
  have taken := takeRequest_taken l code number c body s.part h
  rw [show ({ s.part with lif.deferred := some [] } : Part) = holding s.part from rfl, hb] at taken
  dsimp only at taken ⊢
  rw [run_of_running _ running, taken, finish, settleAll_idle]
  swap
  · rw [(composeReply_after l code number r _).atOnce, (reevaluate_after false q).atOnce]
    exact none_at_once
  rw [reevaluate_deferring hd]
  have flushed : flushDeferred (composeReply l code number r { recompute q with lif.deferred := some (d ++ owedLinsta q) }) =
      composeAll (noticeOrder (d ++ owedLinsta q)) (replied l code number r q) := rfl
  rw [flushed]
  have requests : ((replied l code number r q).link k).requests = [] := by
    by_cases e : l = k
    · subst e; rw [replied_link_same]; exact none_waits
    · rw [replied_link_other e]; exact none_waits
  have same := (composeAll_after (noticeOrder (d ++ owedLinsta q)) (replied l code number r q)).sameConditions (composeAll_cpl _ _)
  have settled : permitNow (replied l code number r q) = (replied l code number r q).cpl.permit := by
    have kept : SameConditions (reevaluate false q) (replied l code number r q) := by
      rw [reevaluate_deferring hd]
      exact After.sameConditions ((composeReply_after l code number r _).trans (after_deferred _ _)) rfl
    rw [kept.permitNow, reevaluate_idem, kept.cpl]
  rw [← composeAll_requests (noticeOrder (d ++ owedLinsta q))] at requests
  rw [← same.permitNow, ← same.cpl] at settled
  generalize composeAll (noticeOrder (d ++ owedLinsta q)) (replied l code number r q) = p at requests settled ⊢
  rw [reevaluate_still, recompute_link, answerAll_link requests]
  rw [(answerAll_sameConditions p).permitNow, answerAll_cpl]
  exact settled

end Sys2Proof.Machine

/-! PROOFS. Profile contexts, RUN, the geometry and the grade tables loaded (chapters 2 and 3). -/

namespace Sys2Proof.Machine

open Sys2Proof

/-! Contexts (R62, R64). -/

theorem runnable_reevaluate (c : CtxNo) (b : Bool) (p : Part) : runnableCtx c (reevaluate b (holding p)) = runnableCtx c p :=
  (reevaluate_sameConditions b (holding p)).runnable c

theorem reevaluate_holding_after (b : Bool) (p : Part) : After p (reevaluate b (holding p)) :=
  (holding_after p).trans (reevaluate_after b _)

theorem ctx_reevaluate (c : CtxNo) (b : Bool) (p : Part) : (reevaluate b (holding p)).ctx c = p.ctx c := by
  rw [Part.ctx, reevaluate_cpl]
  rfl

/-! RUN (R69, R72). -/

/-- The part with RUN set or cleared. -/
def running (b : Bool) (p : Part) : Part := { p with cpl.run := b }

theorem serveRun_eq (b : Bool) (p : Part) :
    serveRun b (holding p) = (⟨.done, .u8 (if permitNow (running b p) then 1 else 0) :: .u8 (permitReport (running b p)).length
      :: (permitReport (running b p)).map fun c => .u8 c.ctorIdx⟩, reevaluate false (holding (running b p))) := by
  have entries (cs : List PermitCond) : (cs.map fun c => [Item.u8 c.ctorIdx]).flatten = cs.map fun c => Item.u8 c.ctorIdx := by
    induction cs with
    | nil => rfl
    | cons c cs ih => rw [List.map_cons, List.flatten_cons, ih]; rfl
  unfold serveRun permitItems listItems
  dsimp only
  rw [reevaluate_cpl, entries, List.length_map]
  rfl

/-- A LINGO or LINSTP taken on link 0 leaves its reply there, and a LINSTA behind it where PERMIT changes (R72, R213). -/
theorem run_request_link {c : Instr} {code number : Nat} {b : Bool} {s : State}
    (hc : exec c s = next (run (takeRequest 0 code number c (serveRun b))) s) (r : Running s.part) (h : Takes 0 code s.part)
    (up : (s.part.link 0).state = .up) (room : (s.part.link 0).transmit.length < 55) (settled : Settled s.part) :
    let e := running b s.part
    let items := Item.u8 (if permitNow e then 1 else 0) :: .u8 (permitReport e).length :: (permitReport e).map fun c => .u8 c.ctorIdx
    ∃ t : State, exec c s = .next t ∧ (t.part.link 0).transmit = (s.part.link 0).transmit ++ ⟨.reply, code, number, .u8 0 :: items⟩
      :: if permitNow e = s.part.cpl.permit then [] else [⟨.notice, 0x85, 0, items ++ faultItems s.part.ztr.fault⟩] := by
  intro e items
  have deferring : (reevaluate false (holding e)).lif.deferred = some (owedLinsta (holding e)) := by
    rw [reevaluate_deferring (d := []) rfl]; rfl
  have link : (reevaluate false (holding e)).link 0 = s.part.link 0 := by rw [reevaluate_deferring (d := []) rfl]; rfl
  have again : owedLinsta (reevaluate false (holding e)) = [] := by rw [owedLinsta, if_pos (reevaluate_idem false _)]
  have at_once : (reevaluate false (holding e)).ztr.atOnce = [] := by rw [(reevaluate_after false _).atOnce]; exact settled.1
  obtain ⟨t, ht, sent⟩ := request_link (k := 0) hc r h (serveRun_eq b s.part) at_once deferring (by rw [link]; exact h.2.1)
  refine ⟨t, ht, ?_⟩
  rw [again, List.append_nil] at sent
  have reply := replied_link_same 0 code number ⟨.done, items⟩ (reevaluate false (holding e))
  rw [link] at reply
  have owed : owedLinsta (holding e) = if permitNow e = s.part.cpl.permit then [] else [linsta (recompute e)] := rfl
  rw [sent, owed]
  generalize replied 0 code number ⟨.done, items⟩ (reevaluate false (holding e)) = q at reply
  split
  · rw [noticeOrder_nil, composeAll, List.foldl_nil, reply]
    rfl
  · have alone : noticeOrder [linsta (recompute e)] = [⟨.supervisor, 0x85, (linsta (recompute e)).fields⟩] := rfl
    rw [alone, composeAll, List.foldl_cons, List.foldl_nil,
      compose_supervisor (by rw [reply]; exact up) (by rw [reply]; simp; omega), Part.link_setLink_same, reply, linsta_fields]
    simp only [items, List.append_assoc, List.cons_append, List.nil_append]
    rfl

/-- Settles O42. -/
theorem contextAndRunRequests : Obligations.ContextAndRunRequests := by
  refine ⟨fun number slot f s r settled small => ?_, fun number s r settled => ?_, fun number s r settled => ?_⟩
  · intro c p e
    have named : ¬ 3 < slot := by omega
    refine ⟨fun h free fits => ?_, fun h free misfit => ?_, fun h bound => ?_, fun h loaded => ?_, fun h empty => ?_⟩
    · have free' : ¬ 0 < ((holding p).ctx c).refs := by show ¬ 0 < (p.ctx c).refs; omega
      have body : serveCtxld slot f (holding p) = (⟨.done, [flagItem (runnableCtx c (reevaluate false (holding e)))]⟩,
          reevaluate false (holding e)) := by
        rw [serveCtxld, if_neg named]
        simp only
        rw [if_neg free', fits, if_neg (by decide)]
        rfl
      refine request_replies_after (body := serveCtxld slot f) rfl r settled h ?_ ?_
      · rw [body, runnable_reevaluate]; rfl
      · rw [body]; exact reevaluate_holding_after false e
    · have free' : ¬ 0 < ((holding p).ctx c).refs := by show ¬ 0 < (p.ctx c).refs; omega
      refine request_replies_still (body := serveCtxld slot f) rfl r settled h ?_
      rw [serveCtxld, if_neg named]
      simp only
      rw [if_neg free', misfit, if_pos (by decide)]
    · refine request_replies_still (body := serveCtxld slot f) rfl r settled h ?_
      rw [serveCtxld, if_neg named]
      exact if_pos bound
    · have loaded' : ¬ ((holding p).ctx c).profile.isNone = true := by
        rw [Option.isNone_iff_eq_none]; exact loaded
      have body : serveCtxsel slot (holding p) = (⟨.done, [.u16 ((reevaluate false (holding { p with cpl.active := c })).ctx c).refs,
          flagItem (runnableCtx c (reevaluate false (holding { p with cpl.active := c })))]⟩,
          reevaluate false (holding { p with cpl.active := c })) := by
        rw [serveCtxsel, if_neg named]
        exact if_neg loaded'
      refine request_replies_after (e := { p with cpl.active := c }) (body := serveCtxsel slot) rfl r settled h ?_ ?_
      · rw [body, runnable_reevaluate, ctx_reevaluate]; rfl
      · rw [body]; exact reevaluate_holding_after false _
    · refine request_replies_still (body := serveCtxsel slot) rfl r settled h ?_
      rw [serveCtxsel, if_neg named]
      exact if_pos (Option.isNone_iff_eq_none.2 empty)
  · have answers {c : Instr} {code : Nat} (b : Bool) (hc : exec c s = next (run (takeRequest 0 code number c (serveRun b))) s)
        (h : Takes 0 code s.part) : Replies c 0 code number s (serveRun b (holding s.part)).1 (running b s.part) :=
      request_replies_after hc r settled h rfl (by rw [serveRun_eq]; exact reevaluate_holding_after false _)
    have lingo := answers (c := .lingo 0 number) true rfl
    have linstp := answers (c := .linstp 0 number) false rfl
    rw [serveRun_eq] at lingo linstp
    exact ⟨lingo, linstp⟩
  · intro old e items fault sent up room
    have same : faultItems s.part.ztr.fault = fault := faultItems_eq _
    have lingo (h : Takes 0 0x23 s.part) := run_request_link (c := .lingo 0 number) rfl r h up room settled
    have linstp (h : Takes 0 0x24 s.part) := run_request_link (c := .linstp 0 number) rfl r h up room settled
    rw [same] at lingo linstp
    exact ⟨lingo, linstp⟩

/-! GEOLD and GRDLD (R55, R66). -/

theorem lineEmpty_iff (p : Part) : lineEmpty p = true ↔
    p.cpl.permit = false ∧ (∀ z : Zone, p.queue z = []) ∧ p.ztr.cutList = [] ∧ p.acu.waste = [] ∧ p.acu.lastCut = none := by
  simp only [lineEmpty, Bool.and_eq_true, List.isEmpty_iff, Option.isNone_iff_eq_none, Bool.not_eq_true']
  constructor
  · rintro ⟨⟨⟨⟨⟨⟨⟨⟨permit, a⟩, b⟩, c⟩, d⟩, e⟩, cuts⟩, waste⟩, last⟩
    exact ⟨permit, fun z => by cases z <;> assumption, cuts, waste, last⟩
  · rintro ⟨permit, queues, cuts, waste, last⟩
    exact ⟨⟨⟨⟨⟨⟨⟨⟨permit, queues .A⟩, queues .B⟩, queues .C⟩, queues .D⟩, queues .E⟩, cuts⟩, waste⟩, last⟩

theorem limitsInRange_of {limits : List GradeLimit} (length : limits.length = 48) (h : ∀ x ∈ limits, x.count ≤ 15 ∧ x.size ≤ 255) :
    limitsInRange limits = true := by
  simp only [limitsInRange, Bool.and_eq_true, beq_iff_eq, List.all_eq_true, decide_eq_true_eq]
  exact ⟨length, h⟩

/-- Settles O41. -/
theorem geometryAndGradeTablesLoad : Obligations.GeometryAndGradeTablesLoad := by
  refine ⟨fun number g s r settled h => ?_, fun number species limits s r settled h low high length fits => ?_⟩
  · intro p empty fits
    have empty_iff : lineEmpty (holding p) = true ↔ empty := lineEmpty_iff (holding p)
    refine ⟨fun ready ok => ?_, fun ready misfit => ?_, fun busy => ?_⟩
    · have body : serveGeold g (holding p) = (⟨.done, []⟩, reevaluate false (holding { p with ztr.geo := g, ztr.geoValid := true })) := by
        rw [serveGeold, empty_iff.2 ready, if_neg (by decide), show (Geometry.inRange g && Geometry.consistent g) = true from ok,
          if_neg (by decide)]
        rfl
      refine request_replies_after (body := serveGeold g) (e := { p with ztr.geo := g, ztr.geoValid := true }) rfl r settled h ?_ ?_
      · rw [body]
      · rw [body]; exact reevaluate_holding_after false _
    · refine request_replies_still (body := serveGeold g) rfl r settled h ?_
      rw [serveGeold, empty_iff.2 ready, if_neg (by decide), show (Geometry.inRange g && Geometry.consistent g) = false from misfit,
        if_pos (by decide)]
    · refine request_replies_still (body := serveGeold g) rfl r settled h ?_
      rw [serveGeold, if_pos (by rw [Bool.not_eq_true', ← Bool.not_eq_true, empty_iff]; exact busy)]
  · have valid : (within 1 8 species && limitsInRange limits) = true := by
      rw [limitsInRange_of length fits]
      simp [within, low, high]
    have users : slotsWhere (usesGrades species (holding s.part)) (holding s.part) = slotsWhere (usesGrades species s.part) s.part := rfl
    refine ⟨fun none_uses => ?_, fun used => ?_⟩
    · have body : serveGrdld species limits (holding s.part) = (⟨.done, []⟩,
          holding { s.part with cpl.grades := s.part.cpl.grades.set (Fin.ofNat 8 (species - 1)) limits }) := by
        rw [serveGrdld, valid, if_neg (by decide), users, none_uses, if_neg (by decide)]
        rfl
      refine request_replies_after (body := serveGrdld species limits)
        (e := { s.part with cpl.grades := s.part.cpl.grades.set (Fin.ofNat 8 (species - 1)) limits }) rfl r settled h ?_ ?_
      · rw [body]
      · rw [body]; exact holding_after _
    · refine request_replies_still (body := serveGrdld species limits) rfl r settled h ?_
      rw [serveGrdld, valid, if_neg (by decide), users, if_pos (by simpa [List.isEmpty_iff] using used)]

end Sys2Proof.Machine

/-! PROOFS. Links reset and made INCOMPATIBLE, and the completion of a LINE CLEAR (11.1, 11.3, 11.4, 2.10). -/

namespace Sys2Proof.Machine

open Sys2Proof

/-! Links reset (R209, R210). -/

theorem linkReset_settled {l : LinkNo} {p : Part} (station : l ≠ 0) (h : Settled p) : Settled (linkReset l p) := by
  rw [linkReset_eq station]
  exact vacate_settled h

theorem linkStateItem_compatible (l : LinkNo) {s : LinkState} (h : s ≠ .incompatible) : linkStateItem l s = .u8 (linkStateNo s) := by
  rw [linkStateItem, if_neg fun k => h k.2]

theorem owedLinsta_dest (p : Part) : ∀ n ∈ owedLinsta p, n.dest = .supervisor := by
  unfold owedLinsta
  split
  · exact nofun
  · intro n hn
    rw [List.mem_singleton.1 hn, linsta]

/-- A link reset inside a request holds back no notice but the supervisor's. -/
theorem linkReset_deferred {l : LinkNo} {p : Part} (station : l ≠ 0) (h : (p.link l).role ≠ some .stacker)
    (held_back : p.lif.deferred = some []) : ∃ d, (linkReset l p).lif.deferred = some d ∧ ∀ n ∈ d, n.dest = .supervisor := by
  refine ⟨owedLinsta (p.setLink l (vacated (p.link l) .down)), ?_, owedLinsta_dest _⟩
  rw [linkReset_eq station, vacate_eq .down h fun e => absurd e station]
  have deferring := reevaluate_deferring (p := p.setLink l (vacated (p.link l) .down)) (d := []) held_back
  generalize reevaluate false (p.setLink l (vacated (p.link l) .down)) = q at deferring
  rw [deferring]
  rfl

theorem mem_noticeOrder {n : Notice} {ns : List Notice} (h : n ∈ noticeOrder ns) : n ∈ ns := by
  simp only [noticeOrder, List.mem_append, List.mem_flatMap, List.mem_filter] at h
  rcases h with (⟨_, -, h, -⟩ | h) | h
  · exact h.1
  · exact h.1
  · exact h.1

/-- Notices to the supervisor leave a station link as it is. -/
theorem composeAll_link_station {l : LinkNo} (station : l ≠ 0) {ns : List Notice} (h : ∀ n ∈ ns, n.dest = .supervisor) (p : Part) :
    (composeAll ns p).link l = p.link l := by
  induction ns generalizing p with
  | nil => rfl
  | cons n ns ih =>
    rw [composeAll, List.foldl_cons, ← composeAll, ih fun m hm => h m (List.mem_cons_of_mem n hm)]
    refine compose_link_other ?_
    rw [h n List.mem_cons_self, destLink]
    split
    · exact fun e => station (Option.some.inj e).symm
    · exact nofun

/-- LINKRST of a station link that is not the STACKER's. -/
theorem linkrst_answers {number target : Nat} {s : State} (r : Running s.part) (settled : Settled s.part) (h : Takes 0 0x52 s.part)
    (low : 1 ≤ target) (high : target ≤ 6) (role : (s.part.link (Fin.ofNat 7 target)).role ≠ some .stacker) :
    let l : LinkNo := Fin.ofNat 7 target
    let x := s.part.link l
    let z := resetLink l s.part.lif.hold x
    Replies (.linkrst 0 number target) 0 0x52 number s ⟨.done, [linkStateItem l z.state]⟩ (s.part.setLink l z)
      ∧ LeavesFrames (.linkrst 0 number target) s l z.transmit := by
  intro l x z
  have station : l ≠ 0 := by
    intro e
    have e' := congrArg Fin.val e
    simp only [l, Fin.val_ofNat, Fin.val_zero] at e'
    omega
  have named : ¬ (target = 0 ∨ 6 < target) := by omega
  have body : serveLinkrst target (holding s.part) =
      (⟨.done, [linkStateItem l ((linkReset l (holding s.part)).link l).state]⟩, linkReset l (holding s.part)) := by
    rw [serveLinkrst, if_neg named]
  have emptied : After (s.part.setLink l (vacated ((holding s.part).link l) .down)) (vacate l .down (holding s.part)) :=
    ((holding_after s.part).setLink l (.refl _)).trans (vacate_after .down role fun e => absurd e station)
  obtain ⟨after, link⟩ := linkReset_after station emptied rfl
  obtain ⟨d, deferred, dest⟩ := linkReset_deferred (p := holding s.part) station role rfl
  rw [link] at body
  refine ⟨request_replies_after (e := s.part.setLink l z) (body := serveLinkrst target) rfl r settled h ?_ ?_, ?_⟩
  · rw [body]; rfl
  · rw [body]; exact after
  · have none_waits : ((linkReset l (holding s.part)).link l).requests = [] := by
      rw [link, resetLink]
      split <;> rfl
    have at_once : (linkReset l (holding s.part)).ztr.atOnce = [] := after.atOnce.trans settled.1
    obtain ⟨t, ht, sent⟩ := request_link (c := .linkrst 0 number target) (k := l) rfl r h body at_once deferred none_waits
    refine ⟨t, ht, ?_⟩
    rw [sent, composeAll_link_station station fun n hn => ?_, replied_link_other (Ne.symm station), link]
    · rfl
    · rcases List.mem_append.1 (mem_noticeOrder hn) with h | h
      · exact dest n h
      · exact owedLinsta_dest _ n h

/-- Settles O39. -/
theorem linkResetVacatesRole : Obligations.LinkResetVacatesRole := by
  refine ⟨fun l n s r settled => ?_, fun number target s r settled h => ?_,
    fun l kind code number payload s r settled hkind hcode hnumber hlength => ?_⟩
  · intro x y p station timer busy annc
    have reset : ∃ z, z = resetLink l s.part.lif.hold x ∧ Completes (.holdTimerExpiry l) s (p.setLink l z)
        ∧ LeavesFrames (.holdTimerExpiry l) s l z.transmit := by
      have expires : holdExpiry l s.part = linkReset l s.part := by
        rw [holdExpiry, if_pos (by rw [show (s.part.link l).holdTimer = some n from timer]; rfl)]
      have emptied : After (p.setLink l (vacated (s.part.link l) .down)) (vacate l .down s.part) := by
        by_cases stacker : x.role = some .stacker
        · rw [show p = { s.part with bas := s.part.bas.map fun b => { b with staHold := false } } from if_pos stacker]
          exact vacate_stacker_after .down stacker station (busy stacker)
        · rw [show p = s.part from if_neg stacker]
          exact vacate_after .down stacker fun e => absurd e station
      have hold : p.lif.hold = s.part.lif.hold := by simp only [p]; split <;> rfl
      have at_once : p.ztr.atOnce = [] := by
        rw [show p.ztr = s.part.ztr by simp only [p]; split <;> rfl]
        exact settled.1
      obtain ⟨after, link⟩ := linkReset_after station emptied hold
      have settled' := linkReset_settled station settled
      refine ⟨_, rfl, ?_, ?_⟩
      · have ended := run_after (holdExpiry l) s.part r (by rw [expires]; exact settled'.1)
        rw [expires] at ended
        exact ⟨⟨run (holdExpiry l) s.part, s.pending⟩, rfl, rfl, after.trans ended⟩
      · refine leavesFrames_of_finish (f := holdExpiry l) rfl r ?_
        rw [expires, finish_link_station station settled' (by rw [link, resetLink]; split <;> rfl), link]
    obtain ⟨z, hz, completes, leaves⟩ := reset
    refine ⟨fun off => ?_, fun on => ?_⟩
    · have e : z = y := by rw [hz, resetLink, if_neg (by rw [off]; decide)]; rfl
      rw [e] at completes leaves
      exact ⟨completes, leaves⟩
    · have e : z = { y with state := .waiting, transmit := annc } := by rw [hz, resetLink, if_pos on]; rfl
      rw [e] at completes leaves
      exact ⟨completes, leaves⟩
  · intro l x y
    refine ⟨fun wrong => ?_, fun low high role off => ?_, fun low high role on => ?_⟩
    · refine request_replies_still (body := serveLinkrst target) rfl r settled h ?_
      rw [serveLinkrst, if_pos wrong]
    · have answers := linkrst_answers (number := number) r settled h low high role
      have e : resetLink l s.part.lif.hold x = y := by rw [resetLink, if_neg (by rw [off]; decide)]; rfl
      simp only at answers
      rw [show resetLink (Fin.ofNat 7 target) s.part.lif.hold (s.part.link (Fin.ofNat 7 target)) = y from e,
        linkStateItem_compatible (s := .down) _ nofun] at answers
      exact answers
    · intro annc'
      have answers := linkrst_answers (number := number) r settled h low high role
      have value : l.val = target := Nat.mod_eq_of_lt (by omega)
      have e : resetLink l s.part.lif.hold x = { y with state := .waiting, transmit := annc' } := by
        rw [resetLink, if_pos on]
        simp only [annc', annc, value]
        rfl
      simp only at answers
      rw [show resetLink (Fin.ofNat 7 target) s.part.lif.hold (s.part.link (Fin.ofNat 7 target)) =
        { y with state := .waiting, transmit := annc' } from e, linkStateItem_compatible (s := .waiting) _ nofun] at answers
      exact answers
  · intro x error received leaves empty few
    have bumped : frameError l s.part = s.part.setLink l error := by rw [frameError, bump_of_lt few]
    have whole (hears_ : receives l s.part = true) {q : Part} (treated : treatFrame l kind code number payload s.part = q)
        (left : (q.link l).rx = []) :=
      (receiveBytes_whole hears_ empty hkind hcode hnumber hlength (by rw [treated]; exact left)).trans treated
    have ends {q e : Part} (body : receiveBytes l (frameBytes kind code number payload) s.part = q) (after : After e q)
        (at_once : e.ztr.atOnce = []) : received e := by
      have ended := run_after (receiveBytes l (frameBytes kind code number payload)) s.part r
        (by rw [body]; exact after.atOnce.trans at_once)
      rw [body] at ended
      exact ⟨⟨run _ s.part, s.pending⟩, rfl, rfl, after.trans ended⟩
    have link : (s.part.setLink l error).link l = error := Part.link_setLink_same _ _ _
    refine ⟨fun hear notice role owed => ?_, fun hear notRequest notNotice => ?_, fun on incompatible => ?_⟩
    · obtain ⟨signal, up, compatible⟩ := (hears_iff l s.part).1 hear
      have treated : treatFrame l kind code number payload s.part = vacate l .incompatible (s.part.setLink l error) := by
        rw [treatFrame, if_neg compatible, notice, if_neg (by decide), if_pos rfl, bumped, goIncompatible]
      have vacated_link := vacate_link_eq (l := l) (s := .incompatible) nofun (s.part.setLink l error)
      have after := vacate_after (p := s.part.setLink l error) (l := l) .incompatible (by rw [link]; exact role) owed
      have settled' := vacate_settled (l := l) (s := .incompatible) (p := s.part.setLink l error) settled
      rw [link] at vacated_link after
      rw [setLink_setLink] at after
      have body := whole ((receives_iff l s.part).2 ⟨signal, up⟩) treated (by rw [vacated_link]; exact empty)
      refine ⟨ends body after settled.1, ?_⟩
      refine leavesFrames_of_finish (f := receiveBytes l (frameBytes kind code number payload)) rfl r ?_
      rw [body, finish_link_unsent (fun e => by subst e; rw [vacated_link]; exact nofun) settled' (by rw [vacated_link]; rfl),
        vacated_link]
      rfl
    · obtain ⟨signal, up, compatible⟩ := (hears_iff l s.part).1 hear
      have treated : treatFrame l kind code number payload s.part = s.part.setLink l error := by
        rw [treatFrame, if_neg compatible, if_neg notRequest, if_neg notNotice, bumped]
      exact ends (whole ((receives_iff l s.part).2 ⟨signal, up⟩) treated (by rw [link]; exact empty)) (.refl _) settled.1
    · have treated : treatFrame l kind code number payload s.part = s.part := by rw [treatFrame, if_pos incompatible]
      have body := whole ((receives_iff l s.part).2 ⟨on, by
        rw [show (s.part.link l).state = .incompatible from incompatible]; exact nofun⟩) treated empty
      refine ⟨ends body (.refl _) settled.1, fun none_waits => ?_⟩
      refine leavesFrames_of_finish (f := receiveBytes l (frameBytes kind code number payload)) rfl r ?_
      rw [body, finish_link_unsent (fun e => by
        subst e; rw [show (s.part.link 0).state = .incompatible from incompatible]; exact nofun) settled none_waits]

/-! The completion of a LINE CLEAR (R57, R71, R73, R213). -/

theorem reportClear_after (c : Clear) (p : Part) : After p (reportClear c p) ∧ (reportClear c p).cpl = p.cpl
    ∧ (reportClear c p).lif.deferred = p.lif.deferred := by
  unfold reportClear
  split
  · exact ⟨compose_after _ _, compose_cpl _ _, compose_deferred _ _⟩
  · exact ⟨.refl _, rfl, rfl⟩

theorem recompute_permit (p : Part) : (recompute p).cpl.permit = permitNow p := rfl

/-- A command leaves PERMIT as its body's part gives it. -/
theorem finish_permit {p : Part} (settled : Settled p) : (finish p).cpl.permit = permitNow p := by
  rw [finish_of_settled settled, reevaluate_cpl, recompute_permit,
    (answerAll_sameConditions p).permitNow]

theorem replyClear_after (c : Clear) (p : Part) : After p (replyClear c p) := by
  unfold replyClear
  split
  · exact .refl _
  · exact (popRequest_after 0 p).trans (composeReply_after _ _ _ _ _)

theorem recompute_after (p : Part) : After p (recompute p) := ⟨⟨rfl, rfl, rfl, rfl, rfl, rfl, rfl⟩, fun _ => SameLink.refl _, rfl⟩

/-- The part behind the completion of a requested LINE CLEAR, its reply composed and no further notice. -/
def clearReplied (number : Nat) (p : Part) : Part :=
  composeReply 0 0x19 number ⟨.done, []⟩ (popRequest 0 (recompute { p with lif.clear := none }))

theorem finishClear_requested {number : Nat} {f : Option FaultCause} {b : Bool} {p : Part}
    (h : p.lif.clear = some ⟨false, some number, b, f, []⟩) :
    finishClear p = reportClear ⟨false, some number, b, f, []⟩ (clearReplied number p) := by
  unfold finishClear
  rw [h]
  rfl

/-- What the completion of an automatic LINE CLEAR comes to: LINE FAULT stands. -/
theorem finishClear_auto {c : Clear} {p : Part} (h : p.lif.clear = some c) (auto : c.auto = true) (unset : p.ztr.fault = none) :
    After { p with lif.clear := none, ztr.fault := some .doubleDamage } (finishClear p) := by
  unfold finishClear
  rw [h]
  simp only [auto, unset, Option.isNone_none, Bool.and_self, if_true]
  exact ((recompute_after _).trans (replyClear_after c _)).trans ((composeAll_after _ _).trans (reportClear_after c _).1)

theorem permitNow_clear_none (p : Part) (h : p.lif.clear = none) : permitNow p = (permitReport p).isEmpty := by
  rw [permitNow, h, Option.isNone_none, Bool.true_or, Bool.and_true]

/-- Settles O35. -/
theorem lineClearCompletes : Obligations.LineClearCompletes := by
  refine ⟨fun number f b s r settled clear waits => ?_, fun c s r settled clear auto unset => ?_⟩
  · have body := finishClear_requested clear
    obtain ⟨report_after, report_cpl, report_deferred⟩ := reportClear_after ⟨false, some number, b, f, []⟩ (clearReplied number s.part)
    have popped : popRequest 0 (recompute { s.part with lif.clear := none }) =
        (recompute { s.part with lif.clear := none }).setLink 0 { s.part.link 0 with requests := [] } := by
      have rest : (s.part.link 0).requests.drop 1 = [] := by rw [waits]; rfl
      rw [popRequest, show (recompute { s.part with lif.clear := none }).link 0 = s.part.link 0 from rfl, rest]
    have after : After { s.part.setLink 0 { s.part.link 0 with requests := [] } with lif.clear := none } (finishClear s.part) := by
      rw [body]
      refine After.trans ?_ report_after
      rw [clearReplied, popped]
      exact ((recompute_after { s.part with lif.clear := none }).setLink 0 (.refl _)).trans (composeReply_after _ _ _ _ _)
    have at_once : (finishClear s.part).ztr.atOnce = [] := after.atOnce.trans settled.1
    have ended := run_after finishClear s.part r at_once
    have whole := after.trans ended
    have requests : ((run finishClear s.part).link 0).requests = [] := by
      have left := (whole.2.1 0).2.2.1
      rw [show ({ s.part.setLink 0 { s.part.link 0 with requests := [] } with lif.clear := none } : Part).link 0 =
        { s.part.link 0 with requests := [] } from Part.link_setLink_same s.part 0 _] at left
      exact List.suffix_nil.1 left
    have cleared : (run finishClear s.part).lif.clear = none := by rw [whole.2.2]
    refine ⟨⟨run finishClear s.part, s.pending⟩, rfl, rfl, cleared, requests, ?_, whole, ?_, fun permit fault => ?_⟩
    · refine ended.mem ?_
      rw [body]
      exact report_after.mem (composeReply_mem _ _ _ _ _)
    · dsimp only at cleared ⊢
      rw [run_of_running _ r] at cleared ⊢
      obtain ⟨q, e⟩ := finish_eq_reevaluate (finishClear s.part)
      rw [e] at cleared ⊢
      exact ⟨reevaluate_permit false q, fun met => (reevaluate_follows false q).1 met cleared⟩
    · have same : SameConditions (recompute { s.part with lif.clear := none }) (clearReplied number s.part) :=
        ((popRequest_after 0 _).trans (composeReply_after _ _ _ _ _)).sameConditions rfl
      have stands : permitNow (clearReplied number s.part) = (clearReplied number s.part).cpl.permit := by
        rw [same.permitNow, same.cpl]
        exact (permitNow_clear_none _ rfl).trans (permitNow_clear_none _ rfl).symm
      have settled' : Settled (clearReplied number s.part) := settled
      have link : (clearReplied number s.part).link 0 = { s.part.link 0 with requests := [], transmit := (s.part.link 0).transmit
          ++ [⟨.reply, 0x19, number, [.u8 0]⟩] } := by
        rw [clearReplied, popped, composeReply, transmit, Part.link_setLink_same, Part.link_setLink_same]
        rfl
      have end_cpl : (run finishClear s.part).cpl.permit = permitNow (clearReplied number s.part) := by
        have reported : Settled (reportClear ⟨false, some number, b, f, []⟩ (clearReplied number s.part)) :=
          ⟨report_after.atOnce.trans settled'.1, report_deferred.trans settled'.2⟩
        rw [run_of_running _ r, body, finish_permit reported, (report_after.sameConditions report_cpl).permitNow]
      have end_fault : (run finishClear s.part).ztr.fault = (clearReplied number s.part).ztr.fault := by rw [whole.1.2.2.1]; rfl
      have quiet : reportClear ⟨false, some number, b, f, []⟩ (clearReplied number s.part) = clearReplied number s.part := by
        have p : (clearReplied number s.part).cpl.permit = b := by rw [← stands, ← end_cpl]; exact permit
        have q : (clearReplied number s.part).ztr.fault = f := by rw [← end_fault]; exact fault
        simp [reportClear, p, q]
      dsimp only
      rw [run_of_running _ r, body, quiet, finish_link_still settled' (by rw [link]) stands, link]
  · have after := finishClear_auto clear auto unset
    have ended := after.trans (run_after finishClear s.part r (after.atOnce.trans settled.1))
    have fault : (run finishClear s.part).ztr.fault = some .doubleDamage := by rw [ended.1.2.2.1]
    refine ⟨⟨run finishClear s.part, s.pending⟩, rfl, rfl, fault, ?_, by rw [ended.2.2]⟩
    dsimp only
    rw [run_of_running _ r] at fault ⊢
    obtain ⟨q, e⟩ := finish_eq_reevaluate (finishClear s.part)
    rw [e] at fault ⊢
    rw [← Bool.not_eq_true]
    intro on
    have conditions := reevaluate_permit false q on
    rw [conditions.2.1] at fault
    cases fault

end Sys2Proof.Machine

/-! PROOFS. Count notices, and the requests that only read (1.7, 1.9, 2.11, 4.1, 8.7, 10.4, 11.8). -/

namespace Sys2Proof.Machine

open Sys2Proof

/-! Count notices (R214). -/

theorem cntntc_sent {p : Part} (up : (p.link 0).state = .up) (room : (p.link 0).transmit.length < 56) (a b c : Nat) :
    cntntc a b c p = p.setLink 0 { p.link 0 with transmit := (p.link 0).transmit ++ [⟨.notice, 0x87, 0,
      [.u32 a, .u32 b, .u32 c, .u32 p.rst.pieceRetired[0], .u32 p.rst.stripRetired[1]]⟩] } :=
  compose_supervisor up room _ _

theorem countEvent_pending {k : Countable} {p : Part} {c : Coalesce} (h : p.lif.coalesce = some c) :
    let one := fun x : Countable => if k = x then 1 else 0
    countEvent k p = { p with
      lif.coalesce := some ⟨c.landed + one .landed, c.rejected + one .rejected, c.full + one .full, p.lif.delay, c.ceilingTimer⟩ } := by
  unfold countEvent
  rw [h]

theorem countEvent_idle {k : Countable} {p : Part} (h : p.lif.coalesce = none) (delay : p.lif.delay ≠ 0) :
    let one := fun x : Countable => if k = x then 1 else 0
    countEvent k p = { p with lif.coalesce := some ⟨one .landed, one .rejected, one .full, p.lif.delay, 8 * p.lif.delay⟩ } := by
  unfold countEvent
  rw [h]
  exact if_neg delay

/-- Settles O59. -/
theorem countNoticesCoalesce : Obligations.CountNoticesCoalesce := by
  refine ⟨fun k p => ?_, fun c hc s r settled => ?_⟩
  · intro one
    refine ⟨fun c h => countEvent_pending h, fun idle delay => countEvent_idle idle delay, fun idle delay up room => ?_⟩
    rw [← cntntc_sent up room, countEvent, idle]
    exact if_pos delay
  · have timer : exec c s = next (run reportCounts) s := by
      rcases List.mem_pair.1 hc with rfl | rfl <;> rfl
    have completes {e : Part} (body : reportCounts s.part = e) (at_once : e.ztr.atOnce = []) : Completes c s e := by
      rw [← body] at at_once ⊢
      exact next_run_completes c reportCounts s timer r at_once
    refine ⟨fun k pending up room => completes ?_ settled.1, fun idle => completes (by rw [reportCounts, idle]) settled.1⟩
    rw [reportCounts, pending]
    exact cntntc_sent (p := { s.part with lif.coalesce := none }) up room _ _ _

/-! ZONRD's list: what fits (R58). -/

theorem itemsSize_append (a b : List Item) : itemsSize (a ++ b) = itemsSize a + itemsSize b := by simp [itemsSize]

theorem itemsSize_listItems (es : List (List Item)) : itemsSize (listItems es) = 1 + (es.map itemsSize).sum := by
  have flat (es : List (List Item)) : itemsSize es.flatten = (es.map itemsSize).sum := by
    induction es with
    | nil => rfl
    | cons e es ih => rw [List.flatten_cons, itemsSize_append, ih, List.map_cons, List.sum_cons]
  rw [← flat, listItems, ← List.singleton_append, itemsSize_append]
  rfl

/-- The entries taken stand first in the list, fit in the room, and leave no room for the next one. -/
theorem takeFitting_spec (room : Nat) (es : List (List Item)) :
    let fit := takeFitting room es
    fit <+: es ∧ (fit.map itemsSize).sum ≤ room ∧ ∀ e ∈ es[fit.length]?, room < (fit.map itemsSize).sum + itemsSize e := by
  induction es generalizing room with
  | nil => exact ⟨List.nil_prefix, Nat.zero_le _, nofun⟩
  | cons e es ih =>
    rw [takeFitting]
    split
    · next fits =>
      obtain ⟨first, within_room, next⟩ := ih (room - itemsSize e)
      refine ⟨List.cons_prefix_cons.2 ⟨rfl, first⟩, ?_, fun x hx => ?_⟩
      · rw [List.map_cons, List.sum_cons]; omega
      · have := next x (by simpa using hx)
        rw [List.map_cons, List.sum_cons]; omega
    · next full =>
      refine ⟨List.nil_prefix, Nat.zero_le _, fun x hx => ?_⟩
      obtain rfl : e = x := by simpa using hx
      simp only [List.map_nil, List.sum_nil]
      omega

theorem itemsSize_optPos (x : Option Nat) : itemsSize (optPos x) ≤ 5 := by
  cases x <;> simp [optPos, optItems, itemsSize]

theorem zonrdHead_size (z : Zone) (x : ZoneList) (p : Part) : itemsSize (zonrdHead z x p) ≤ 30 := by
  cases z <;> simp [zonrdHead, counterFields, zoneEyeItems, eyeItems, flagItem, itemsSize]

theorem zonrdTail_size (z : Zone) (p : Part) : itemsSize (zonrdTail z p) ≤ 15 := by
  have fault : itemsSize (faultItems p.ztr.fault) ≤ 5 := by rcases p.ztr.fault with _ | (z | _) <;> simp [faultItems, itemsSize, flagItem, zoneItem]
  have last := itemsSize_optPos p.acu.lastCut
  rw [zonrdTail, itemsSize_append, itemsSize_append, actionFields]
  split
  · rw [itemsSize_append]
    simp only [itemsSize, flagItem, List.map_cons, List.map_nil, List.sum_cons, List.sum_nil] at *
    omega
  · simp only [itemsSize, flagItem, List.map_cons, List.map_nil, List.sum_cons, List.sum_nil] at *
    omega

/-- ZONRD's entries: as many from the first on as a payload holds, at most 32. -/
theorem zonrd_entries (z : Zone) (x : ZoneList) (first : Nat) (p : Part) :
    ∃ entries : List (List Item), entries <+: (listEntries z x p).drop first ∧ entries.length ≤ 32
      ∧ 1 + itemsSize (zonrdHead z x p ++ listItems entries ++ zonrdTail z p) ≤ 255
      ∧ (∀ e ∈ ((listEntries z x p).drop first)[entries.length]?, entries.length = 32
        ∨ 255 < 1 + itemsSize (zonrdHead z x p ++ listItems (entries ++ [e]) ++ zonrdTail z p))
      ∧ zonrdItems z x first p = zonrdHead z x p ++ listItems entries ++ zonrdTail z p := by
  have head := zonrdHead_size z x p
  have tail := zonrdTail_size z p
  have spec := takeFitting_spec (255 - (2 + itemsSize (zonrdHead z x p) + itemsSize (zonrdTail z p)))
    (((listEntries z x p).drop first).take 32)
  refine ⟨_, spec.1.trans (List.take_prefix _ _), ?_, ?_, fun e he => ?_, rfl⟩
  · exact spec.1.length_le.trans (List.length_take_le _ _)
  · rw [itemsSize_append, itemsSize_append, itemsSize_listItems]
    have := spec.2.1
    omega
  · by_cases full : (takeFitting (255 - (2 + itemsSize (zonrdHead z x p) + itemsSize (zonrdTail z p)))
      (((listEntries z x p).drop first).take 32)).length = 32
    · exact .inl full
    · have short := spec.1.length_le.trans (List.length_take_le 32 _)
      have over_room := spec.2.2 e (by rw [List.getElem?_take_of_lt (by omega)]; exact he)
      refine .inr ?_
      rw [itemsSize_append, itemsSize_append, itemsSize_listItems, List.map_append, List.sum_append, List.map_singleton,
        List.sum_singleton]
      omega

/-! Reading requests. -/

theorem bayOf_succ (b : BayNo) : bayOf (b.val + 1) = some b := by
  rw [bayOf, if_pos (by omega)]
  exact congrArg some (Fin.ext (Nat.mod_eq_of_lt (by omega)))

theorem bayOf_outside {n : Nat} (h : n = 0 ∨ 8 < n) : bayOf n = none := by rw [bayOf, if_neg (by omega)]

/-- MAPNEXT of a zone B whose one entry is a strip in SCANNING. -/
theorem serveMapnext_scanning {x : Strip} {e : Entry} {len d : Nat} {p : Part} (queue : p.queue .B = [e]) (tag : e.tag = some x.tag)
    (h : HoldsStrip x p) (scanning : x.state = .scanning) (length : x.lenB = some len) (deadline : x.deadline = some d) :
    serveMapnext p = (⟨.done, [.u16 x.tag, .u32 len, .u32 d, .u32 (minus .B d (p.counter .B)), .u8 1]⟩, p) := by
  have read : (p.queue .B).foldl readEntry (false, p) = (false, p) := by
    rw [queue, List.foldl_cons, List.foldl_nil, readEntry]
    simp only [Bool.false_eq_true, if_false, tag, lookup_strip .lif h]
  have found : scanningStrips p = [x] := by
    rw [scanningStrips, queue]
    simp only [List.filterMap_cons, List.filterMap_nil, scanningStrip, tag, recordAt_strip h, scanning, if_true]
  rw [serveMapnext]
  simp only [read, Bool.false_eq_true, if_false, found, length, deadline, Option.getD_some, ahead]
  rfl

/-- Settles O53. -/
theorem readRequestsAnswerState : Obligations.ReadRequestsAnswerState := by
  refine ⟨fun l number s r settled h => ?_, fun number s r settled h => ?_, fun number zone list first s r settled h => ?_,
    fun l number s r settled h => ?_, fun number value s r settled h => ?_, fun l number bay b s r settled h => ?_,
    fun number s r settled h => ?_⟩
  · refine ⟨fun x holds => ?_, fun y holds => ?_, fun tag clean gone => ?_⟩
    · refine request_replies_still (body := serveRecrd x.tag) rfl r settled h ?_
      rw [serveRecrd, lookup_strip (p := holding s.part) .lif holds]
    · refine request_replies_still (body := serveRecrd y.tag) rfl r settled h ?_
      rw [serveRecrd, lookup_piece (p := holding s.part) .lif holds]
    · refine request_replies_still (body := serveRecrd tag) rfl r settled h ?_
      rw [serveRecrd, lookup_stale (p := holding s.part) .lif clean gone]
  · intro after flag
    refine ⟨fun empty => ?_, fun c full => ?_⟩
    · refine request_replies_after (body := serveErrrd) rfl r settled h ?_ (holding_after after)
      simp only [serveErrrd, show (holding s.part).rst.capture = none from empty]
      rfl
    · refine request_replies_after (body := serveErrrd) rfl r settled h ?_ (holding_after after)
      simp only [serveErrrd, show (holding s.part).rst.capture = some c from full]
      rfl
  · refine ⟨fun z x hz hx low => ?_, fun wrong => ?_⟩
    · obtain ⟨entries, listed, few, fits, next, items⟩ := zonrd_entries z x first s.part
      refine ⟨entries, listed, few, fits, next, ?_⟩
      refine request_replies_still (body := serveZonrd zone list first) rfl r settled h ?_
      rw [← items, serveZonrd, hz]
      simp only [hx]
      exact if_neg (by omega)
    · refine request_replies_still (body := serveZonrd zone list first) rfl r settled h ?_
      rw [serveZonrd]
      split
      · rfl
      · next z hz =>
        split
        · rfl
        · next x hx =>
          refine if_pos ?_
          rcases wrong with none_named | ⟨z', named, none_listed⟩ | high
          · rw [hz] at none_named; cases none_named
          · rw [hz] at named
            obtain rfl := Option.some.inj named
            rw [hx] at none_listed; cases none_listed
          · exact high
  · refine ⟨fun x e len d queue tag holds scanning length deadline => ?_, fun empty => ?_⟩
    · exact request_replies_still (body := serveMapnext) rfl r settled h
        (serveMapnext_scanning (p := holding s.part) queue tag holds scanning length deadline)
    · refine request_replies_still (body := serveMapnext) rfl r settled h ?_
      have queue : (holding s.part).queue .B = [] := empty
      rw [serveMapnext, queue]
      simp only [List.foldl_nil, Bool.false_eq_true, if_false, scanningStrips, queue, List.filterMap_nil]
  · refine ⟨fun o => ?_, fun high => ?_, fun o low high found => ?_, fun low high unknown => ?_⟩
    · refine request_replies_still (body := serveOrdrd 0 o.val) rfl r settled h ?_
      rw [serveOrdrd, if_pos rfl, if_neg (by omega), show Fin.ofNat 32 o.val = o from Fin.ext (Nat.mod_eq_of_lt o.isLt)]
      rfl
    · refine request_replies_still (body := serveOrdrd 0 value) rfl r settled h ?_
      rw [serveOrdrd, if_pos rfl, if_pos high]
    · refine request_replies_still (body := serveOrdrd 1 value) rfl r settled h ?_
      rw [serveOrdrd, if_neg (by decide), if_pos rfl, if_neg (by simp [within, low, high]),
        show findOrder value (holding s.part) = some o from found]
      rfl
    · refine request_replies_still (body := serveOrdrd 1 value) rfl r settled h ?_
      rw [serveOrdrd, if_neg (by decide), if_pos rfl, if_neg (by simp [within, low, high]),
        show findOrder value (holding s.part) = none from unknown]
  · intro x
    refine ⟨fun u y full bundle label => ?_, fun notFull => ?_, fun outside => ?_⟩
    · refine request_replies_still (body := serveLblrd (b.val + 1)) rfl r settled h ?_
      have labelled : (((holding s.part).bay b).bundle.bind (·.label)) = some y := by
        rw [show ((holding s.part).bay b).bundle = some u from bundle, Option.bind_some, label]
      rw [serveLblrd, bayOf_succ]
      simp only [labelled]
      exact if_pos full
    · refine request_replies_still (body := serveLblrd (b.val + 1)) rfl r settled h ?_
      rw [serveLblrd, bayOf_succ]
      dsimp only
      split
      · rfl
      · exact if_neg notFull
    · refine request_replies_still (body := serveLblrd bay) rfl r settled h ?_
      rw [serveLblrd, bayOf_outside outside]
  · exact request_replies_still (body := serveCntrd) rfl r settled h rfl

end Sys2Proof.Machine

/-! PROOFS. Compares taken and records rewritten: what the proofs about the line's commands share; then the saw, the ends of pulses, the
tenoner and the A-eye's trailing edge (2.4, 6.4, 6.7, 7.3). -/

namespace Sys2Proof.Machine

open Sys2Proof

/-! A command from what its body comes to. -/

theorem completes_of_after {c : Instr} {f : Part → Part} {s : State} {e : Part} (hc : exec c s = next (run f) s) (r : Running s.part)
    (after : After e (f s.part)) (at_once : e.ztr.atOnce = []) : Completes c s e :=
  ⟨⟨run f s.part, s.pending⟩, hc, rfl, after.trans (run_after f s.part r (after.atOnce.trans at_once))⟩

theorem completes_of_eq {c : Instr} {f : Part → Part} {s : State} {e : Part} (hc : exec c s = next (run f) s) (r : Running s.part)
    (body : f s.part = e) (at_once : e.ztr.atOnce = []) : Completes c s e :=
  completes_of_after hc r (by rw [body]; exact .refl e) at_once

/-- The part with a compare that was due spent (R36, R116). -/
def spent (e : Event) (p : Part) : Part := { p with ztr.due := p.ztr.due.filter fun x => x != e }

theorem takeDue_of_mem {e : Event} {p : Part} (h : e ∈ p.ztr.due) : takeDue e p = takeEvent e (spent e p) := if_pos (by simpa using h)

theorem takeDue_of_not_mem {e : Event} {p : Part} (h : e ∉ p.ztr.due) : takeDue e p = p := if_neg (by simpa using h)

theorem cancel_atOnce {p : Part} (e : Event) (h : p.ztr.atOnce = []) : (cancel e p).ztr.atOnce = [] := by
  rw [cancel, h]
  rfl

/-! A record rewritten in its slot (R7, R13). -/

theorem setSlot_setSlot (i : SlotNo) (x y : Slot) (p : Part) : (p.setSlot i x).setSlot i y = p.setSlot i y := by
  simp [Part.setSlot]

theorem clean_rewritten (i : SlotNo) (g : Nat) (c : Contents) (p : Part) : CleanSlot i (p.setSlot i (rewritten g c)) := by
  rw [CleanSlot, Part.slot_setSlot_same]
  exact ⟨rfl, rfl, rfl⟩

theorem holdsStrip_writeStrip {x : Strip} {p : Part} (gen : (p.slot (slotOf x.tag)).gen = genOf x.tag) : HoldsStrip x (writeStrip x p) := by
  refine ⟨clean_rewritten _ _ _ p, ?_⟩
  rw [writeStrip, writeRecord, Part.slot_setSlot_same]
  exact ⟨gen, rfl⟩

theorem holdsPiece_writePiece {x : Piece} {p : Part} (gen : (p.slot (slotOf x.tag)).gen = genOf x.tag) : HoldsPiece x (writePiece x p) := by
  refine ⟨clean_rewritten _ _ _ p, ?_⟩
  rw [writePiece, writeRecord, Part.slot_setSlot_same]
  exact ⟨gen, rfl⟩

theorem HoldsStrip.written {x y : Strip} {p : Part} (h : HoldsStrip x p) (tag : y.tag = x.tag) : HoldsStrip y (writeStrip y p) :=
  holdsStrip_writeStrip (by rw [tag]; exact h.2.1)

theorem HoldsPiece.written {x y : Piece} {p : Part} (h : HoldsPiece x p) (tag : y.tag = x.tag) : HoldsPiece y (writePiece y p) :=
  holdsPiece_writePiece (by rw [tag]; exact h.2.1)

/-- The last write of a record's slot counts. -/
theorem writeStrip_writeStrip {x y : Strip} (tag : x.tag = y.tag) (p : Part) : writeStrip y (writeStrip x p) = writeStrip y p := by
  simp only [writeStrip, writeRecord, tag, Part.slot_setSlot_same, rewritten, setSlot_setSlot]

theorem writePiece_writePiece {x y : Piece} (tag : x.tag = y.tag) (p : Part) : writePiece y (writePiece x p) = writePiece y p := by
  simp only [writePiece, writeRecord, tag, Part.slot_setSlot_same, rewritten, setSlot_setSlot]

/-- A record rewritten before its retirement leaves no trace. -/
theorem retireSlot_writeStrip {x y : Strip} {p : Part} (cause : StripRetire) (h : HoldsStrip x p) (tag : y.tag = x.tag)
    (ctx : y.ctx = x.ctx) : retireSlot (slotOf x.tag) (.strip cause) (writeStrip y p) = retireSlot (slotOf x.tag) (.strip cause) p := by
  have written := retireSlot_strip cause (h.written tag)
  rw [tag] at written
  rw [written, retireSlot_strip cause h, ctx, writeStrip, writeRecord, tag, setSlot_setSlot]
  rfl

theorem retireSlot_writePiece {x y : Piece} {p : Part} (cause : PieceRetire) (h : HoldsPiece x p) (tag : y.tag = x.tag)
    (ctx : y.ctx = x.ctx) : retireSlot (slotOf x.tag) (.piece cause) (writePiece y p) = retireSlot (slotOf x.tag) (.piece cause) p := by
  have written := retireSlot_piece cause (h.written tag)
  rw [tag] at written
  rw [written, retireSlot_piece cause h, ctx, writePiece, writeRecord, tag, setSlot_setSlot]
  rfl

theorem retireSlot_atOnce (i : SlotNo) (c : Retire) (p : Part) : (retireSlot i c p).ztr.atOnce = p.ztr.atOnce := by
  unfold retireSlot
  dsimp only
  split
  · rfl
  · cases c <;> rfl

theorem retire_writeStrip_after {x y : Strip} {p : Part} (cause : StripRetire) (h : HoldsStrip x p) (tag : y.tag = x.tag)
    (ctx : y.ctx = x.ctx) : After (retireSlot (slotOf x.tag) (.strip cause) p) (retire (slotOf x.tag) (.strip cause) (writeStrip y p)) := by
  rw [← retireSlot_writeStrip cause h tag ctx]
  exact retire_after _ _ _

theorem retire_writePiece_after {x y : Piece} {p : Part} (cause : PieceRetire) (h : HoldsPiece x p) (tag : y.tag = x.tag)
    (ctx : y.ctx = x.ctx) : After (retireSlot (slotOf x.tag) (.piece cause) p) (retire (slotOf x.tag) (.piece cause) (writePiece y p)) := by
  rw [← retireSlot_writePiece cause h tag ctx]
  exact retire_after _ _ _

/-! The saw and the pulses (R121, R124, R125, R132). -/

/-- The saw fired, before the strip's record is written. -/
def sawFired (t : Nat) (rest : List SawEntry) (p : Part) : Part :=
  let q := cancel .lastCut p
  { q with
    acu.sawPulse := some p.acu.sawWidth
    acu.saw := rest
    acu.lastCut := some t
    ztr.compares := q.ztr.compares ++ [⟨.lastCut, wrap .C (t + p.ztr.geo.rSaw)⟩] }

theorem sawFires_eq {x : Strip} {t tag : Nat} {rest : List SawEntry} {p : Part} (saw : p.acu.saw = ⟨t, tag⟩ :: rest)
    (ahead : strictlyAhead .C (wrap .C (t + p.ztr.geo.rSaw)) (p.counter .C) = true) :
    sawFires x t p =
      let q := writeStrip { x with pendingSaw := x.pendingSaw - 1 } (sawFired t rest p)
      if x.pendingSaw ≤ 1 then retire (slotOf x.tag) (.strip .cutDone) (leaveCutList x.tag q) else q := by
  have armed : arm .lastCut (wrap .C (t + p.ztr.geo.rSaw)) (cancel .lastCut { p with
      acu.sawPulse := some p.acu.sawWidth, acu.saw := p.acu.saw.drop 1, acu.lastCut := some t }) = sawFired t rest p := by
    rw [arm_ahead (by exact ahead), saw]
    rfl
  rw [sawFires]
  dsimp only
  rw [armed]

theorem fireSaw_eq {x : Strip} {t : Nat} {rest : List SawEntry} {p : Part} (saw : p.acu.saw = ⟨t, x.tag⟩ :: rest)
    (due : .saw t ∈ p.ztr.due) (h : HoldsStrip x p) : fireSaw p = sawFires x t (spent (.saw t) p) := by
  have saw' : (spent (.saw t) p).acu.saw = ⟨t, x.tag⟩ :: rest := saw
  rw [fireSaw, saw, List.head?_cons]
  dsimp only
  rw [takeDue_of_mem due, takeEvent, takeSawTarget, saw', List.head?_cons]
  dsimp only
  rw [if_pos rfl, takeSaw, saw']
  dsimp only
  rw [lookup_strip (p := spent (.saw t) p) .acu h]

/-- Settles O26. -/
theorem sawFiresAndPulsesEnd : Obligations.SawFiresAndPulsesEnd := by
  refine ⟨fun x t rest s r settled => ?_, fun s r settled due => ?_, fun b s r settled => ?_⟩
  · intro p q r' saw due h ahead
    have body := fireSaw_eq (p := s.part) saw due h
    rw [show spent (.saw t) s.part = p from rfl, sawFires_eq saw ahead] at body
    have at_once : r'.ztr.atOnce = [] := cancel_atOnce (p := p) .lastCut settled.1
    refine ⟨fun many => ?_, fun last => ?_⟩
    · exact completes_of_eq rfl r (by rw [body]; exact if_neg (by omega)) at_once
    · have done : fireSaw s.part = retire (slotOf x.tag) (.strip .cutDone) (writeStrip { x with pendingSaw := x.pendingSaw - 1 }
          (leaveCutList x.tag (sawFired t rest p))) := by rw [body]; exact if_pos (by omega)
      refine completes_of_after rfl r ?_ (e := retireSlot (slotOf x.tag) (.strip .cutDone) (leaveCutList x.tag r')) ?_
      · rw [done]
        exact retire_writeStrip_after (p := leaveCutList x.tag (sawFired t rest p)) .cutDone h rfl rfl
      · rw [retireSlot_atOnce]
        exact at_once
  · exact completes_of_eq rfl r ((takeDue_of_mem due).trans rfl) settled.1
  · exact ⟨completes_of_eq rfl r rfl settled.1, completes_of_eq rfl r rfl settled.1⟩

/-! The A-eye's trailing edge (R43). -/

/-- A strip that holds no pieces and is not past its plan enters REJECTING (R8). -/
theorem rejectStrip_early {s : Strip} {p : Part} (r : Reader) (cause : RejectCause) (rejecting : s.state ≠ .rejecting)
    (cutting : s.state ≠ .cutting) (planned : s.state ≠ .planned) : rejectStrip r cause s p =
      (false, writeStrip { s with state := .rejecting, reject := some cause } (cancel (.deadline s.tag) (leavePlanner s.tag p))) := by
  rw [rejectStrip, if_neg (not_or.2 ⟨rejecting, cutting⟩)]
  exact if_neg planned

theorem profileOf_eq {c : CtxNo} {p : Part} {f : Profile} (h : (p.ctx c).profile = some f) : profileOf c p = f := by
  rw [profileOf, h, Option.getD_some]

/-- Settles O17. -/
theorem aEyeTrailingEdgeMeasures : Obligations.AEyeTrailingEdgeMeasures := by
  intro x f lead s r settled p len blocked valid item h entering leadA profile
  let p' : Part := { s.part with ztr.eyeA := s.part.ztr.eyeA.trailing (s.part.counter .A) }
  have body : aEyeTrailing s.part = { measureA x (p'.counter .A) p' with ztr.itemA := .none } := by
    rw [aEyeTrailing, blocked, if_neg (by decide)]
    have valid' : p'.ztr.geoValid = true := valid
    have item' : p'.ztr.itemA = .tag x.tag := item
    have closed : closeA p' = measureA x (p'.counter .A) p' := by
      rw [closeA, item']
      dsimp only
      rw [lookup_strip (p := p') .ztr h]
    show (if p'.ztr.geoValid = true then _ else _) = _
    rw [if_pos valid', ← closed]
  have len_eq : minus .A (p'.counter .A) (x.leadA.getD 0) = len := by rw [leadA]; rfl
  have profile' : profileOf x.ctx p' = f := profileOf_eq profile
  refine ⟨fun fits => completes_of_eq rfl r ?_ settled.1, fun long => completes_of_eq rfl r ?_ (cancel_atOnce (p := p) _ settled.1)⟩
  · rw [body, measureA]
    simp only [len_eq, profile', entering, if_true]
    rw [if_neg (by omega)]
    rfl
  · rw [body, measureA]
    simp only [len_eq, profile']
    rw [if_pos long, rejectStrip_early (s := { x with lenA := some len, suspect := true }) .ztr .suspectLength
      (by rw [entering]; decide) (by rw [entering]; decide) (by rw [entering]; decide)]
    rfl

/-! The tenoner compare (R141). -/

theorem find_lone {α : Type} {f : α → Bool} {e : α} (h : f e = true) : [e].find? f = some e := by simp [h]

theorem compose_station {p : Part} {r : Role} {l : LinkNo} (enrolled : enrolledLink r p = some l) (room : (p.link l).transmit.length < 56)
    (code : Nat) (fields : List Item) : compose ⟨.role r, code, fields⟩ p =
      p.setLink l { p.link l with transmit := (p.link l).transmit ++ [⟨.notice, code, 0, fields⟩] } := by
  rw [compose, destLink]
  dsimp only
  rw [enrolled]
  exact sendNotice_room room code fields

theorem takeTenoner_eq {y : Piece} {e : Entry} {p : Part} (queue : p.queue .D = [e]) (tag : e.tag = some y.tag) (h : HoldsPiece y p)
    (lug : y.state = .lug) : takeTenoner e.lead p =
      if (enrolledLink .endmatcher p).isSome then compose (lugten y e.lead p) (p.setQueue .D [{ e with status := .sent }])
      else p.setQueue .D [{ e with status := .unsent }] := by
  have status (t : TenStatus) : setTenStatus e.lead t p = p.setQueue .D [{ e with status := t }] := by
    simp only [setTenStatus, queue, List.map_cons, List.map_nil, if_true]
  rw [takeTenoner, queue, find_lone (by simp)]
  dsimp only
  split
  · next none_tagged => rw [tag] at none_tagged; cases none_tagged
  · next t tagged =>
    obtain rfl : y.tag = t := Option.some.inj (tag.symm.trans tagged)
    rw [lookup_piece .ztr h]
    dsimp only
    rw [if_pos lug, status, status]

/-- Settles O25. -/
theorem tenonerCompareSendsLugten : Obligations.TenonerCompareSendsLugten := by
  intro y e s r settled p due queue tag h lug
  have body : takeDue (.tenoner e.lead) s.part = takeTenoner e.lead p := takeDue_of_mem due
  rw [takeTenoner_eq queue tag h lug] at body
  refine ⟨fun l enrolled room => completes_of_eq rfl r ?_ settled.1, fun none_enrolled => ?_⟩
  · rw [body, enrolled, Option.isSome_some]
    exact compose_station (p := p.setQueue .D [{ e with status := .sent }]) enrolled room _ _
  · have unsent : takeDue (.tenoner e.lead) s.part = p.setQueue .D [{ e with status := .unsent }] := by
      rw [body, none_enrolled]
      exact if_neg (by decide)
    refine ⟨completes_of_eq rfl r unsent settled.1, fun still none_waits l => ?_⟩
    refine leavesFrames_of_finish (f := takeDue (.tenoner e.lead)) rfl r ?_
    rw [unsent, finish_link_still (p := p.setQueue .D [{ e with status := .unsent }]) settled (none_waits l) still]
    rfl

end Sys2Proof.Machine

/-! PROOFS. The scrubber's read and the completion of a plan (1.5, 1.7, 4.5, 4.6). -/

namespace Sys2Proof.Machine

open Sys2Proof

/-! The scrubber (R15, R16, R21, R23). -/

/-- The scrubber's pointer advanced behind a read. -/
def pointed (n : SlotNo) (p : Part) : Part := { p with rst.scrubPtr := n }

theorem scrub_readable {p : Part} (h : (p.slot p.rst.scrubPtr).check ≠ .double) :
    scrub p = pointed (p.rst.scrubPtr + 1) (repair p.rst.scrubPtr .rst p) := by
  rw [scrub, readSlot, finding, if_neg h]
  rfl

/-- A slot's repair where its shadow entry is good (R15). -/
theorem repair_single {i : SlotNo} {r : Reader} {p : Part} (single : (p.slot i).check = .single) (parity : (p.slot i).parityBad = false) :
    repair i r p =
      let q := p.setSlot i { p.slot i with check := .good, parityBad := false }
      if (p.slot i).contents = .nothing then q
      else takeCapture .corrected i (tagOf (p.slot i).gen i) r { q with rst.corrected := bump q.rst.corrected } := by
  unfold repair
  simp only [single, parity, beq_self_eq_true, Bool.not_true, Bool.false_and, Bool.false_eq_true, if_false, Bool.true_and]
  by_cases live : (p.slot i).contents = .nothing
  · simp [live]
  · simp [live]

theorem slotFinding_silent {x : Slot} (double : x.check = .double) (good : x.parityBad = false) (free : x.shadow.body = .nothing) :
    finding x = .silent := by
  rw [finding, if_pos double, good, if_neg Bool.false_ne_true, if_pos free]

theorem good_of_parity {x : Slot} (h : x.parityBad = false) : ({ x with check := .good, parityBad := false } : Slot) = { x with check := .good } := by
  cases x
  simp_all

/-- A slot's repair where its shadow entry's parity is wrong (R16). -/
theorem repair_parity {i : SlotNo} {r : Reader} {p : Part} (parity : (p.slot i).parityBad = true) :
    repair i r p =
      let x := p.slot i
      let q := p.setSlot i ⟨x.gen, x.contents, .good, ⟨x.gen, shadowOf x.contents⟩, false⟩
      let q := if x.check = .single ∧ x.contents ≠ .nothing then { q with rst.corrected := bump q.rst.corrected } else q
      takeCapture .shadow i (tagOf x.gen i) r { q with rst.shadowed := bump q.rst.shadowed } := by
  unfold repair
  simp only [parity, Bool.not_true, Bool.and_false, Bool.false_eq_true, if_false, if_true, Bool.and_eq_true, beq_iff_eq, bne_iff_ne]

theorem takeCapture_none {k : CaptureKind} {i : SlotNo} {tag : Nat} {r : Reader} {p : Part} (h : p.rst.capture = none) :
    takeCapture k i tag r p = { p with rst.capture := some ⟨k, i, tag, r⟩ } := by
  unfold takeCapture
  rw [h]

theorem takeCapture_some {k : CaptureKind} {i : SlotNo} {tag : Nat} {r : Reader} {p : Part} {c : Capture} (h : p.rst.capture = some c) :
    takeCapture k i tag r p = { p with rst.overrun := true } := by
  unfold takeCapture
  rw [h]

/-- Settles O32. -/
theorem scrubReadRepairsSlot : Obligations.ScrubReadRepairsSlot := by
  intro s r settled p i x capture clean rebuilt
  have readable (h : x.check ≠ .double) : scrub s.part = pointed (i + 1) (repair i .rst s.part) := scrub_readable h
  have completes {e : Part} (body : scrub s.part = e) (ztr : e.ztr = s.part.ztr) : Completes .scrubRead s e :=
    completes_of_eq rfl r body (by rw [ztr]; exact settled.1)
  have captured {k : CaptureKind} {q : Part} (ztr : q.ztr = s.part.ztr)
      (body : scrub s.part = pointed (i + 1) (takeCapture k i (tagOf x.gen i) .rst q)) :
      Completes .scrubRead s (capture k (pointed (i + 1) q)) := by
    have standing (c : Option Capture) (h : (pointed (i + 1) q).rst.capture = c) : q.rst.capture = c := h
    simp only [capture]
    split
    · next h =>
      rw [takeCapture_none (standing _ h)] at body
      exact completes body ztr
    · next c h =>
      rw [takeCapture_some (standing _ h)] at body
      exact completes body ztr
  refine ⟨fun double good free => completes ?_ rfl, fun good parity => completes ?_ rfl,
    fun single parity free => completes ?_ rfl, fun single parity live few => ?_, fun readable_ parity few => ?_,
    fun single parity live few few' => ?_⟩
  · rw [scrub, readSlot, slotFinding_silent (x := s.part.slot s.part.rst.scrubPtr) double good free]
    rfl
  · rw [readable (by rw [good]; decide), repair]
    simp only [show (s.part.slot i).check = .good from good, show (s.part.slot i).parityBad = false from parity]
    rfl
  · rw [readable (by rw [single]; decide), repair_single (p := s.part) single parity]
    dsimp only
    rw [if_pos (show (s.part.slot i).contents = .nothing from free), good_of_parity (x := s.part.slot i) parity]
    rfl
  · rw [← bump_of_lt few]
    refine captured (q := { s.part.setSlot i { x with check := .good } with rst.corrected := bump s.part.rst.corrected }) rfl ?_
    rw [readable (by rw [single]; decide), repair_single (p := s.part) single parity]
    dsimp only
    rw [if_neg (show (s.part.slot i).contents ≠ .nothing from live), good_of_parity (x := s.part.slot i) parity]
    rfl
  · rw [← bump_of_lt few]
    refine captured (q := { s.part.setSlot i ⟨x.gen, x.contents, .good, ⟨x.gen, shadowOf x.contents⟩, false⟩ with
      rst.shadowed := bump s.part.rst.shadowed }) rfl ?_
    have notCorrected : ¬ ((s.part.slot i).check = .single ∧ (s.part.slot i).contents ≠ .nothing) := by
      rintro ⟨single, live⟩
      rcases readable_ with good | ⟨-, free⟩
      · rw [show x.check = .single from single] at good; cases good
      · exact live free
    rw [readable (by rcases readable_ with e | ⟨e, -⟩ <;> rw [e] <;> decide), repair_parity (p := s.part) parity]
    dsimp only
    rw [if_neg notCorrected]
    rfl
  · rw [← bump_of_lt few, ← bump_of_lt few']
    refine captured (q := { s.part.setSlot i ⟨x.gen, x.contents, .good, ⟨x.gen, shadowOf x.contents⟩, false⟩ with
      rst.corrected := bump s.part.rst.corrected
      rst.shadowed := bump s.part.rst.shadowed }) rfl ?_
    rw [readable (by rw [single]; decide), repair_parity (p := s.part) parity]
    dsimp only
    rw [if_pos (show (s.part.slot i).check = .single ∧ (s.part.slot i).contents ≠ .nothing from ⟨single, live⟩)]
    rfl

/-! Plan completion (R88 to R92). -/

theorem startPlanning_empty {p : Part} (h : p.cpl.queue = []) : startPlanning p = p := by
  rw [startPlanning, h]
  split <;> rfl

/-- A completion for a strip whose record stands. -/
theorem completePlan_eq {x : Strip} {j : PlanJob} {p : Part} (job : p.cpl.job = some j) (tag : j.tag = x.tag) (h : HoldsStrip x p) :
    completePlan p = startPlanning { (if j.discard = false ∧ x.state = .planning then applyResult x (choosePlan j.snapshot) p else p) with
      cpl.job := none } := by
  unfold completePlan
  rw [job]
  dsimp only
  rw [tag, lookup_strip .cpl h]

theorem leavePlanner_absent {tag : Nat} {p : Part} (h : p.cpl.queue = []) : leavePlanner tag p = p := by
  rw [leavePlanner, h]
  cases p with
  | mk a b z c d e f g =>
    cases c
    simp_all

/-- Settles O30. -/
theorem planWithoutPiecesAndDiscard : Obligations.PlanWithoutPiecesAndDiscard := by
  refine ⟨fun x j s r settled job tag h spared queue => ?_, fun x j s r settled => ?_⟩
  · refine completes_of_eq rfl r ?_ settled.1
    have kept : ¬ (j.discard = false ∧ x.state = .planning) := by
      rintro ⟨taken, planning⟩
      rcases spared with discarded | other
      · rw [discarded] at taken; cases taken
      · exact other planning
    rw [completePlan_eq job tag h, if_neg kept]
    exact startPlanning_empty queue
  · intro p job tag kept h planning queue
    have queue' : s.part.cpl.queue = [] := queue
    have body := completePlan_eq (p := s.part) job tag h
    rw [if_pos ⟨kept, planning⟩] at body
    have rejected (cause : RejectCause) (y : Strip) (hy : y.state = x.state) (hz : y.tag = x.tag) :
        startPlanning { (rejectStrip .cpl cause y s.part).2 with cpl.job := none } =
          writeStrip { y with state := .rejecting, reject := some cause } p := by
      rw [rejectStrip_early .cpl cause (by rw [hy, planning]; decide) (by rw [hy, planning]; decide) (by rw [hy, planning]; decide),
        leavePlanner_absent queue', hz]
      exact startPlanning_empty queue'
    refine ⟨fun none_fits => completes_of_eq rfl r ?_ (cancel_atOnce _ settled.1),
      fun some_fit few => completes_of_eq rfl r ?_ (cancel_atOnce _ settled.1)⟩
    · rw [body, applyResult, if_pos none_fits]
      exact rejected .empty { x with plan := some ⟨0, []⟩ } rfl rfl
    · rw [body, applyResult, if_neg some_fit, if_pos (by exact few)]
      exact rejected .noSlots x rfl rfl

end Sys2Proof.Machine

/-! PROOFS. A plan's completion that makes a piece (4.6, 5.12, 8.4), and what later proofs share: operations behind a re-evaluation, and
writes to two slots. -/

namespace Sys2Proof.Machine

open Sys2Proof

/-! Operations that neither read nor change what a re-evaluation changes. -/

/-- The part with other frames on its links, and other values in PERMIT's own fields. -/
def reshaped (x : Vector LinkRec 7) (d : Option (List Notice)) (a : Bool) (b : List PermitCond) (c : Bool) (p : Part) : Part :=
  { p with
    lif.link := x
    lif.deferred := d
    cpl.runnable := a
    cpl.report := b
    cpl.permit := c }

theorem After.map {f : Part → Part} (commutes : ∀ x d a b c p, f (reshaped x d a b c p) = reshaped x d a b c (f p))
    (links : ∀ p, (f p).lif.link = p.lif.link) {p q : Part} (h : After p q) : After (f p) (f q) := by
  obtain ⟨x, d, a, b, c, e⟩ := h.shape
  have same : ∀ l : LinkNo, SameLink (p.link l) (q.link l) := h.2.1
  rw [show q = reshaped x d a b c p from e] at same ⊢
  rw [commutes]
  refine ⟨⟨rfl, rfl, rfl, rfl, rfl, rfl, rfl⟩, fun l => ?_, rfl⟩
  have link : (f p).link l = p.link l := by rw [Part.link, links]; rfl
  rw [link]
  exact same l

/-! Writes to two slots. -/

theorem setSlot_comm {i j : SlotNo} (h : i ≠ j) (x y : Slot) (p : Part) : (p.setSlot i x).setSlot j y = (p.setSlot j y).setSlot i x := by
  have ne : (i : Nat) ≠ j := fun e => h (Fin.ext e)
  simp only [Part.setSlot]
  rw [Vector.set_comm _ _ ne]

theorem writeRecord_setSlot {i j : SlotNo} (h : i ≠ j) (x : Slot) (c : Contents) (p : Part) :
    writeRecord j c (p.setSlot i x) = (writeRecord j c p).setSlot i x := by
  rw [writeRecord, Part.slot_setSlot_other _ _ _ _ h, setSlot_comm h]
  rfl

theorem holdsStrip_setSlot {s : Strip} {i : SlotNo} {x : Slot} {p : Part} (h : HoldsStrip s p) (other : i ≠ slotOf s.tag) :
    HoldsStrip s (p.setSlot i x) := by
  rwa [HoldsStrip, CleanSlot, Part.slot_setSlot_other _ _ _ _ other]

theorem holdsPiece_setSlot {y : Piece} {i : SlotNo} {x : Slot} {p : Part} (h : HoldsPiece y p) (other : i ≠ slotOf y.tag) :
    HoldsPiece y (p.setSlot i x) := by
  rwa [HoldsPiece, CleanSlot, Part.slot_setSlot_other _ _ _ _ other]

/-! Attribution (R157). -/

theorem baysOf_blocks {p q : Part} (bas : q.bas = p.bas) (b : BayNo) : q.bay b = p.bay b := by rw [Part.bay, bas]; rfl

theorem reserveChoice_congr {p q : Part} (ort : q.ort = p.ort) (bas : q.bas = p.bas) (y : Piece) : reserveChoice y q = reserveChoice y p := by
  have orders (o : OrderNo) : q.order o = p.order o := by rw [Part.order, ort]; rfl
  have short (o : OrderNo) (r : Order) : shortfall o r q = shortfall o r p := by
    simp only [shortfall, hasOpen, baysOf_blocks bas] <;> rfl
  simp only [reserveChoice, orders, canReserve, short] <;> rfl

theorem changeOrder_some {o : OrderNo} {r : Order} {p : Part} (h : p.order o = some r) (f : Order → Order) :
    changeOrder o f p = p.setOrder o (some (f r)) := by
  rw [changeOrder, h]
  rfl

theorem reservePiece_none {y : Piece} {p : Part} (h : y.grade = .W ∨ reserveChoice y p = none) : reservePiece y p = p := by
  unfold reservePiece
  split
  · rfl
  · next other => rw [h.resolve_left other]

theorem reservePiece_some {y : Piece} {p : Part} {o : OrderNo} {r : Order} (grade : y.grade ≠ .W) (choice : reserveChoice y p = some o)
    (h : p.order o = some r) : reservePiece y p =
      writePiece { y with reserved := some o } (p.setOrder o (some { r with reservedArea := r.reservedArea + y.area })) := by
  unfold reservePiece
  rw [if_neg grade, choice]
  dsimp only
  rw [changeOrder_some h]

/-! The completion (R92, R113, R114). -/

/-- The piece made in slot i, and the strip PLANNED, before attribution. -/
def pieceMade (x : Strip) (pl : Place) (i : SlotNo) (rest : List SlotNo) (p : Part) : Part :=
  let tag := tagOf (nextGen (p.slot i).gen) i
  writeStrip { x with state := .planned, plan := some ⟨pl.value, [⟨some tag, pl.start, pl.cls, pl.foot⟩]⟩ } (cancel (.deadline x.tag)
    (changeRefs (· + 1) x.ctx (({ p with rst.free := rest } : Part).setSlot i
      (rewritten (nextGen (p.slot i).gen) (.piece (newPiece x 1 pl tag))))))

theorem applyPlan_single {x : Strip} {pl : Place} {i : SlotNo} {rest : List SlotNo} {p : Part} (free : p.rst.free = i :: rest)
    (other : i ≠ slotOf x.tag) :
    let tag := tagOf (nextGen (p.slot i).gen) i
    ∃ q, After (pieceMade x pl i rest p) q ∧ applyPlan x [pl] p = reservePiece (newPiece x 1 pl tag) q := by
  intro tag
  have allocated : allocatePieces x 1 [pl] p = ([tag], changeRefs (· + 1) x.ctx (({ p with rst.free := rest } : Part).setSlot i
      (rewritten (nextGen (p.slot i).gen) (.piece (newPiece x 1 pl tag))))) := by
    rw [allocatePieces, allocate_cons _ _ free]
    rfl
  refine ⟨writeStrip { x with state := .planned, plan := some ⟨pl.value, [⟨some tag, pl.start, pl.cls, pl.foot⟩]⟩ }
    (cancel (.deadline x.tag) (reevaluate false (allocatePieces x 1 [pl] p).2)), ?_, ?_⟩
  · rw [allocated]
    exact (reevaluate_after false _).map (f := fun p => writeStrip _ (cancel _ p)) (fun _ _ _ _ _ _ => rfl) (fun _ => rfl)
  · have plan : planOf [pl] [tag] = ⟨pl.value, [⟨some tag, pl.start, pl.cls, pl.foot⟩]⟩ := by
      simp [planOf, planValue]
    rw [applyPlan, allocated]
    simp only [plan, List.foldl_cons, List.foldl_nil]
    generalize hq : reevaluate false _ = q
    have rst : q.rst = (({ p with rst.free := rest } : Part).setSlot i
      (rewritten (nextGen (p.slot i).gen) (.piece (newPiece x 1 pl tag)))).rst := by
      rw [← hq, (reevaluate_after false _).1.2.1]
      rfl
    have made : recordAt tag (writeStrip { x with state := .planned, plan := some ⟨pl.value, [⟨some tag, pl.start, pl.cls, pl.foot⟩]⟩ }
        (cancel (.deadline x.tag) q)) = .piece (newPiece x 1 pl tag) := by
      have slot : (writeStrip { x with state := .planned, plan := some ⟨pl.value, [⟨some tag, pl.start, pl.cls, pl.foot⟩]⟩ }
          (cancel (.deadline x.tag) q)).slot i = rewritten (nextGen (p.slot i).gen) (.piece (newPiece x 1 pl tag)) := by
        have kept : (cancel (.deadline x.tag) q).slot i = _ := slot_congr rst i
        rw [writeStrip, writeRecord, Part.slot_setSlot_other _ _ _ _ (Ne.symm other), kept, Part.slot_setSlot_same]
      rw [recordAt, slotOf_tagOf, slot, genOf_tagOf, rewritten, if_pos rfl]
    rw [attributePiece, made]

/-- Settles O31. -/
theorem planCompletionMakesPieces : Obligations.PlanCompletionMakesPieces := by
  intro x j pl i rest s r settled p gen tag y plan q put job tag_eq kept h planning queue chosen free other
  obtain ⟨m, after, applied⟩ := applyPlan_single (p := s.part) (pl := pl) free other
  have body := completePlan_eq (p := s.part) job tag_eq h
  have room : ¬ s.part.rst.free.length < [pl].length := by
    rw [show s.part.rst.free = i :: rest from free]
    simp
  rw [if_pos ⟨kept, planning⟩, applyResult, chosen, if_neg (List.cons_ne_nil _ _), if_neg room, applied,
    show newPiece x 1 pl (tagOf (nextGen (s.part.slot i).gen) i) = y from rfl] at body
  have made : { pieceMade x pl i rest s.part with cpl.job := none } = put y := by
    have moved := writeRecord_setSlot other ⟨gen, .piece y, .good, ⟨gen, shadowOf (.piece y)⟩, false⟩
      (.strip { x with state := .planned, plan := some plan }) { p.setCtx x.ctx { p.ctx x.ctx with refs := (p.ctx x.ctx).refs + 1 } with rst.free := rest }
    exact moved
  have choice (z : Piece) : reserveChoice z m = reserveChoice z p := reserveChoice_congr (by rw [after.1.2.2.2.2.1]; rfl) (by rw [after.1.2.2.2.2.2.1]; rfl) z
  have queue_m : m.cpl.queue = [] := by rw [after.1.2.2.2.2.2.2]; exact queue
  have at_once (z : Piece) : (put z).ztr.atOnce = [] := cancel_atOnce _ settled.1
  refine ⟨fun unreserved => ?_, fun o r' grade reserved order => ?_⟩
  · rw [reservePiece_none (unreserved.imp_right fun e => (choice y).trans e)] at body
    refine completes_of_after rfl r ?_ (at_once y)
    rw [body, startPlanning_empty (p := { m with cpl.job := none }) queue_m, ← made]
    exact after.map (f := fun p => { p with cpl.job := none }) (fun _ _ _ _ _ _ => rfl) (fun _ => rfl)
  · have order_m : m.order o = some r' := by
      rw [Part.order, after.1.2.2.2.2.1]
      exact order
    rw [reservePiece_some grade ((choice y).trans reserved) order_m] at body
    refine completes_of_after rfl r ?_ (at_once y)
    rw [body, startPlanning_empty (by exact queue_m)]
    have moved := after.map (f := fun p => { writePiece { y with reserved := some o } (p.setOrder o (some { r' with
      reservedArea := r'.reservedArea + pl.area })) with cpl.job := none }) (fun _ _ _ _ _ _ => rfl) (fun _ => rfl)
    have rewritten_y : writePiece { y with reserved := some o } (put y) = put { y with reserved := some o } := by
      have slot : slotOf tag = i := slotOf_tagOf gen i
      rw [writePiece, writeRecord, show slotOf ({ y with reserved := some o } : Piece).tag = i from slot]
      simp only [put, Part.slot_setSlot_same, setSlot_setSlot]
      rfl
    rw [← rewritten_y, ← made]
    exact moved

end Sys2Proof.Machine

/-! PROOFS. Items that enter a zone at the A-eye, the B-eye, the E-eye and the load point, and those that leave at the end eye
(2.3 to 2.8, 7.1 to 7.4). -/

namespace Sys2Proof.Machine

open Sys2Proof

/-! Entries that join an empty queue (R39, R44). -/

/-- An entry joins an empty queue, the far end of its window ahead: it is the head, and its expiry is armed. -/
theorem joinTail_armed {z : Zone} {e : Entry} {p : Part} (empty : p.queue z = [])
    (ahead : strictlyAhead z (wrap z (e.expect + e.half)) (p.counter z) = true) :
    joinTail z e p = { p.setQueue z [e] with
      ztr.compares := (p.setQueue z [e]).ztr.compares ++ [⟨.expiry z, wrap z (e.expect + e.half)⟩] } := by
  rw [joinTail_empty empty, arm_ahead]
  rw [counter_setQueue]
  exact ahead

theorem counter_reshaped (x : Vector LinkRec 7) (d : Option (List Notice)) (a : Bool) (b : List PermitCond) (c : Bool) (p : Part) (z : Zone) :
    (reshaped x d a b c p).counter z = p.counter z := by cases z <;> rfl

theorem queue_reshaped (x : Vector LinkRec 7) (d : Option (List Notice)) (a : Bool) (b : List PermitCond) (c : Bool) (p : Part) (z : Zone) :
    (reshaped x d a b c p).queue z = p.queue z := by cases z <;> rfl

theorem setQueue_reshaped (x : Vector LinkRec 7) (d : Option (List Notice)) (a : Bool) (b : List PermitCond) (c : Bool) (z : Zone)
    (q : List Entry) (p : Part) : (reshaped x d a b c p).setQueue z q = reshaped x d a b c (p.setQueue z q) := by cases z <;> rfl

theorem arm_reshaped (x : Vector LinkRec 7) (d : Option (List Notice)) (a : Bool) (b : List PermitCond) (c : Bool) (e : Event) (t : Nat)
    (p : Part) : arm e t (reshaped x d a b c p) = reshaped x d a b c (arm e t p) := by
  unfold arm
  rw [counter_reshaped]
  split <;> rfl

theorem After.arm {p q : Part} (h : After p q) (e : Event) (t : Nat) : After (arm e t p) (arm e t q) :=
  h.map (fun x d a b c p => arm_reshaped x d a b c e t p) fun p => by
    obtain ⟨_, _, e⟩ := arm_shape e t p
    rw [e]

theorem After.joinTail {p q : Part} (h : After p q) (z : Zone) (e : Entry) : After (joinTail z e p) (joinTail z e q) := by
  refine h.map (fun x d a b c p => ?_) fun p => ?_
  · cases queue : p.queue z with
    | nil => rw [joinTail_empty queue, joinTail_empty (by rw [queue_reshaped]; exact queue), setQueue_reshaped, arm_reshaped]
    | cons y ys => rw [joinTail_behind queue, joinTail_behind (by rw [queue_reshaped]; exact queue), setQueue_reshaped]
  · have lif (q : List Entry) : (p.setQueue z q).lif = p.lif := by cases z <;> rfl
    cases queue : p.queue z with
    | nil =>
      obtain ⟨_, _, e⟩ := arm_shape (.expiry z) (wrap z (e.expect + e.half)) (p.setQueue z [e])
      rw [joinTail_empty queue, e]
      exact congrArg _ (lif _)
    | cons y ys => rw [joinTail_behind queue, lif]

/-! Strips made at an eye (R3, R42, R46). -/

/-- The part with a strip made in the free list's head, bound to the active context, before PERMIT's re-evaluation. -/
def stripMade (mk : CtxNo → Nat → Nat → Strip) (f : Profile) (i : SlotNo) (rest : List SlotNo) (p : Part) : Part :=
  changeRefs (· + 1) p.cpl.active (({ p with rst.free := rest } : Part).setSlot i
    (rewritten (nextGen (p.slot i).gen) (.strip (mk p.cpl.active f.species (tagOf (nextGen (p.slot i).gen) i)))))

theorem allocateStrip_some {mk : CtxNo → Nat → Nat → Strip} {f : Profile} {i : SlotNo} {rest : List SlotNo} {p : Part}
    (loaded : (p.ctx p.cpl.active).profile = some f) (free : p.rst.free = i :: rest) :
    allocateStrip mk p = (some (tagOf (nextGen (p.slot i).gen) i), reevaluate false (stripMade mk f i rest p)) := by
  rw [allocateStrip, loaded]
  dsimp only
  rw [allocate_cons _ _ free]
  rfl

theorem allocateStrip_none {mk : CtxNo → Nat → Nat → Strip} {p : Part} (h : (p.ctx p.cpl.active).profile = none ∨ p.rst.free = []) :
    allocateStrip mk p = (none, p) := by
  unfold allocateStrip
  split
  · rfl
  · next f loaded =>
    rw [allocate, h.resolve_left (by rw [loaded]; exact nofun)]

theorem makeEntry_congr {p q : Part} (h : q.ztr.geo = p.ztr.geo) (z : Zone) (tag : Option Nat) (lead : Nat) :
    makeEntry z tag lead q = makeEntry z tag lead p := by rw [makeEntry, makeEntry, h]

/-! The A-eye (R42). -/

/-- An edge at the A-eye recorded. -/
def edgeA (p : Part) : Part := { p with ztr.eyeA := { p.ztr.eyeA with blocked := true, lead := p.counter .A } }

theorem aEyeLeading_edge {p : Part} (clear : p.ztr.eyeA.blocked = false) :
    aEyeLeading p = if p.ztr.geoValid then enterLine (edgeA p) else countUntracked (edgeA p) := by
  rw [aEyeLeading, clear, if_neg Bool.false_ne_true]
  rfl

/-- Settles O16. -/
theorem aEyeLeadingEdgeEntersItem : Obligations.AEyeLeadingEdgeEntersItem := by
  refine ⟨fun f i rest s r settled => ?_, fun s r settled clear few => ?_⟩
  · intro p n v gen tag strip q clear valid loaded free empty ahead
    let e : Entry := ⟨some tag, n, v, p.ztr.geo.wAB, .none⟩
    have body : aEyeLeading p = { joinTail .A e (reevaluate false (stripMade (fun c sp t => newStrip c sp n t) f i rest (edgeA p))) with
        ztr.itemA := .tag tag } := by
      rw [aEyeLeading_edge clear, valid, if_pos rfl, enterLine, admission_empty (z := .A) (p := edgeA p) empty]
      dsimp only
      rw [allocateStrip_some (p := edgeA p) loaded free]
      dsimp only
      rw [Option.isNone_some, if_neg Bool.false_ne_true]
      rw [makeEntry_congr (p := p) (by rw [(reevaluate_after false _).1.2.2.1]; rfl)]
      rfl
    refine completes_of_after rfl r ?_ settled.1
    rw [body]
    have joined := joinTail_armed (z := .A) (e := e) (p := stripMade (fun c sp t => newStrip c sp n t) f i rest (edgeA p)) empty ahead
    have after := ((reevaluate_after false (stripMade (fun c sp t => newStrip c sp n t) f i rest (edgeA p))).joinTail .A e).map
      (f := fun p => { p with ztr.itemA := .tag tag }) (fun _ _ _ _ _ _ => rfl) (fun _ => rfl)
    rw [joined] at after
    exact after
  · intro p v e
    have counted : countUntracked (edgeA s.part) = p := by rw [countUntracked, bump_of_lt (by exact few)]; rfl
    refine ⟨fun invalid => completes_of_eq rfl r ?_ settled.1, fun valid unbound empty ahead => completes_of_eq rfl r ?_ settled.1⟩
    · rw [aEyeLeading_edge clear, show s.part.ztr.geoValid = false from invalid, if_neg Bool.false_ne_true, counted]
    · rw [aEyeLeading_edge clear, show s.part.ztr.geoValid = true from valid, if_pos rfl, enterLine,
        admission_empty (z := .A) (p := edgeA s.part) empty]
      dsimp only
      rw [allocateStrip_none (p := edgeA s.part) unbound]
      dsimp only
      rw [Option.isNone_none, if_pos rfl, counted]
      have joined := joinTail_armed (z := .A) (e := e) (p := p) empty ahead
      have entry : makeEntry .A none ((edgeA s.part).counter .A) p = e := rfl
      rw [entry, joined]
      rfl

/-! The B-eye (R45, R46). -/

/-- An edge at the B-eye recorded. -/
def edgeB (p : Part) : Part := { p with ztr.eyeB := { p.ztr.eyeB with blocked := true, lead := p.counter .B } }

theorem bEyeLeading_edge {p : Part} (clear : p.ztr.eyeB.blocked = false) (valid : p.ztr.geoValid = true) :
    bEyeLeading p = captureB (edgeB p) := by
  rw [bEyeLeading, clear, if_neg Bool.false_ne_true]
  exact if_pos valid

/-- The entry that a capture at the B-eye makes. -/
theorem joinB_eq {tag : Option Nat} {n : Nat} {p : Part} (empty : p.queue .B = [])
    (ahead : strictlyAhead .B (wrap .B (wrap .B (n + p.ztr.geo.gBC) + p.ztr.geo.wBC)) (p.counter .B) = true) :
    joinB tag n p = { p.setQueue .B [⟨tag, n, wrap .B (n + p.ztr.geo.gBC), p.ztr.geo.wBC, .none⟩] with
      ztr.itemB := itemOf tag
      ztr.compares := p.ztr.compares ++ [⟨.expiry .B, wrap .B (wrap .B (n + p.ztr.geo.gBC) + p.ztr.geo.wBC)⟩] } := by
  have joined := joinTail_armed (z := .B) (e := makeEntry .B tag n p) (p := p) empty ahead
  rw [joinB, joined]
  rfl

theorem After.joinB {p q : Part} (h : After p q) (tag : Option Nat) (n : Nat) : After (joinB tag n p) (joinB tag n q) := by
  rw [Machine.joinB, Machine.joinB, makeEntry_congr (p := p) (q := q) (by rw [h.1.2.2.1])]
  exact (h.joinTail .B _).map (f := fun p => { p with ztr.itemB := itemOf tag }) (fun _ _ _ _ _ _ => rfl) (fun _ => rfl)

theorem enterB_early {x : Strip} (n : Nat) (h : x.state = .enteringA ∨ x.state = .inA) :
    enterB x n = { x with leadB := some n, state := .enteringB } := by rw [enterB, if_pos h]

theorem matchB_eq {x : Strip} {e : Entry} {n : Nat} {p : Part} (queue : p.queue .A = [e]) (tag : e.tag = some x.tag)
    (h : HoldsStrip x p) : matchB e n p = joinB (some x.tag) n (writeStrip (enterB x n) (cancel (.expiry .A) (p.setQueue .A []))) := by
  rw [matchB, popHead_only queue, tag]
  dsimp only
  rw [show cancel (.expiry .A) (entryGone .A e (p.setQueue .A [])) = cancel (.expiry .A) (p.setQueue .A []) from rfl,
    lookup_strip (p := cancel (.expiry .A) (p.setQueue .A [])) .ztr h]

/-- Settles O18. -/
theorem bEyeLeadingEdgeEntersItem : Obligations.BEyeLeadingEdgeEntersItem := by
  refine ⟨fun x e s r settled => ?_, fun s r settled => ?_⟩
  · intro p n v clear valid queue tag h inside before empty ahead
    refine completes_of_eq rfl r ?_ (cancel_atOnce _ settled.1)
    have captured : captureB (edgeB s.part) = matchB e n (edgeB s.part) := by
      rw [captureB, matchedHead_hit (z := .A) (p := edgeB s.part) queue inside, admission_empty (z := .B) (p := edgeB s.part) empty]
      rfl
    rw [bEyeLeading_edge (p := s.part) clear valid, captured, matchB_eq (p := edgeB s.part) queue tag h, enterB_early n before,
      joinB_eq (p := writeStrip _ (cancel (.expiry .A) ((edgeB s.part).setQueue .A []))) empty ahead]
    rfl
  · intro p n v entry cs clear valid noneA empty ahead
    have captured : bEyeLeading s.part = untrackedB n p := by
      rw [bEyeLeading_edge (p := s.part) clear valid, captureB, matchedHead_empty (z := .A) (p := edgeB s.part) noneA,
        admission_empty (z := .B) (p := edgeB s.part) empty]
      rfl
    refine ⟨fun f i rest loaded free => ?_, fun unbound => completes_of_eq rfl r ?_ settled.1⟩
    · intro gen tag strip q
      have after := (reevaluate_after false (stripMade (fun c sp t => newUntracked c sp n t) f i rest p)).joinB (some tag) n
      rw [joinB_eq (p := stripMade (fun c sp t => newUntracked c sp n t) f i rest p) empty ahead] at after
      refine completes_of_after rfl r ?_ settled.1
      rw [captured, untrackedB, allocateStrip_some loaded free]
      exact after
    · rw [captured, untrackedB, allocateStrip_none unbound, joinB_eq empty ahead]
      rfl

end Sys2Proof.Machine

/-! PROOFS. The B-eye's trailing edge, the load point and the sorter's eyes (2.6 to 2.8, 7.1 to 7.4). -/

namespace Sys2Proof.Machine

open Sys2Proof

/-! The B-eye's trailing edge (R49, R75). -/

theorem absDiff_le_iff (a b n : Nat) : absDiff a b ≤ n ↔ a ≤ b + n ∧ b ≤ a + n := by
  unfold absDiff
  omega

/-- Settles O19. -/
theorem bEyeTrailingEdgeOffersScan : Obligations.BEyeTrailingEdgeOffersScan := by
  intro x l lead lenA s r settled p len d blocked valid item h entering leadB length
  let p' : Part := { s.part with ztr.eyeB := s.part.ztr.eyeB.trailing (s.part.counter .B) }
  have body : bEyeTrailing s.part = { measureB x (p'.counter .B) p' with ztr.itemB := .none } := by
    have closed : closeB p' = measureB x (p'.counter .B) p' := by
      rw [closeB, show p'.ztr.itemB = .tag x.tag from item]
      dsimp only
      rw [lookup_strip (p := p') .ztr h]
    rw [bEyeTrailing, blocked, if_neg (by decide), ← closed]
    exact if_pos valid
  have len_eq : minus .B (p'.counter .B) (x.leadB.getD 0) = len := by rw [leadB]; rfl
  have agree : lengthsAgree { x with lenB := some len } len p' = true ↔ len ≤ lenA + p.ztr.geo.lTol ∧ lenA ≤ len + p.ztr.geo.lTol := by
    rw [lengthsAgree]
    simp only [length, decide_eq_true_eq, absDiff_le_iff]
    rfl
  refine ⟨fun near near' ahead enrolled room => completes_of_eq rfl r ?_ settled.1,
    fun apart => completes_of_eq rfl r ?_ (cancel_atOnce (p := p) _ settled.1)⟩
  · have offered : measureB x (p'.counter .B) p' = offerScan { x with lenB := some len } len p' := by
      rw [measureB]
      simp only [len_eq]
      rw [if_pos entering, if_pos (agree.2 ⟨near, near'⟩)]
    have deadline : wrap .B (({ x with lenB := some len } : Strip).leadB.getD 0 + p'.ztr.geo.dDeadline) = d := by
      rw [show ({ x with lenB := some len } : Strip).leadB = some lead from leadB]
      rfl
    have armed := arm_ahead (e := .deadline x.tag) (t := d)
      (p := writeStrip { x with lenB := some len, state := .scanning, deadline := some d } p') ahead
    rw [body, offered, offerScan]
    simp only [deadline]
    rw [armed, stripscan]
    have sent := compose_station (r := .scanner) (l := l)
      (p := { writeStrip { x with lenB := some len, state := .scanning, deadline := some d } p' with
        ztr.compares := p'.ztr.compares ++ [⟨.deadline x.tag, d⟩] }) enrolled room 0x81 [.u16 x.tag, .u32 len]
    exact congrArg (fun q : Part => { q with ztr.itemB := .none }) sent
  · have rejected : measureB x (p'.counter .B) p' =
        (rejectStrip .ztr .suspectLength { x with lenB := some len, suspect := true } p').2 := by
      rw [measureB]
      simp only [len_eq]
      rw [if_pos entering, if_neg (by rw [agree]; omega)]
    rw [body, rejected, rejectStrip_early (s := { x with lenB := some len, suspect := true }) .ztr .suspectLength
      (by rw [entering]; decide) (by rw [entering]; decide) (by rw [entering]; decide)]
    rfl

/-! The load point (R33, R52, R138). -/

/-- A lug pulse recorded: the counter, the compares it takes, and the sample. -/
def pulsed (occupied : Bool) (p : Part) : Part :=
  let n := wrap .D (p.counter .D + 1)
  { takeCompares .D n (p.setZone .D { p.zone .D with counter := n }) with ztr.load := ⟨occupied, n⟩ }

theorem stepLug_eq (occupied : Bool) (p : Part) :
    stepLug occupied p = if occupied && p.ztr.geoValid then captureD (pulsed occupied p) else pulsed occupied p := rfl

theorem joinD_untagged {n : Nat} {p : Part} (empty : p.queue .D = [])
    (ahead : strictlyAhead .D (wrap .D (wrap .D (n + p.ztr.geo.nDis) + p.ztr.geo.wDE)) (p.counter .D) = true) :
    joinD none n p = { p.setQueue .D [⟨none, n, wrap .D (n + p.ztr.geo.nDis), p.ztr.geo.wDE, .none⟩] with
      ztr.compares := p.ztr.compares ++ [⟨.expiry .D, wrap .D (wrap .D (n + p.ztr.geo.nDis) + p.ztr.geo.wDE)⟩] } := by
  have joined := joinTail_armed (z := .D) (e := makeEntry .D none n p) (p := p) empty ahead
  rw [joinD, joined]
  rfl

theorem joinD_tagged {t n : Nat} {p : Part} (empty : p.queue .D = [])
    (ahead : strictlyAhead .D (wrap .D (wrap .D (n + p.ztr.geo.nDis) + p.ztr.geo.wDE)) (p.counter .D) = true)
    (ahead' : strictlyAhead .D (wrap .D (n + p.ztr.geo.nTen)) (p.counter .D) = true) :
    joinD (some t) n p = { p.setQueue .D [⟨some t, n, wrap .D (n + p.ztr.geo.nDis), p.ztr.geo.wDE, .armed⟩] with
      ztr.compares := p.ztr.compares ++ [⟨.expiry .D, wrap .D (wrap .D (n + p.ztr.geo.nDis) + p.ztr.geo.wDE)⟩,
        ⟨.tenoner n, wrap .D (n + p.ztr.geo.nTen)⟩] } := by
  have joined := joinTail_armed (z := .D) (e := makeEntry .D (some t) n p) (p := p) empty ahead
  have armed := arm_ahead (e := .tenoner n) (t := wrap .D (n + p.ztr.geo.nTen)) (p := joinTail .D (makeEntry .D (some t) n p) p)
    (by rw [joined]; exact ahead')
  have geo : (joinTail .D (makeEntry .D (some t) n p) p).ztr.geo = p.ztr.geo := by rw [joined]; rfl
  rw [joinD]
  simp only [Option.isSome_some, if_true, geo]
  rw [armed, joined]
  simp only [List.append_assoc]
  rfl

/-- The zone C head matched at the load point (R52, R138). -/
theorem matchD_eq {x : Piece} {e : Entry} {n : Nat} {p : Part} (queue : p.queue .C = [e]) (tag : e.tag = some x.tag)
    (h : HoldsPiece x p) : matchD e n p = joinD (some x.tag) n
      (writePiece { x with state := .lug, lug := some n, lead := some n } (cancel (.expiry .C) (p.setQueue .C []))) := by
  rw [matchD, popHead_only queue, tag]
  dsimp only
  rw [show cancel (.expiry .C) (entryGone .C e (p.setQueue .C [])) = cancel (.expiry .C) (p.setQueue .C []) from rfl,
    lookup_piece (p := cancel (.expiry .C) (p.setQueue .C [])) .ztr h]

/-- Settles O14. -/
theorem lugPulseCountsAndLoads : Obligations.LugPulseCountsAndLoads := by
  refine ⟨fun s r settled => ?_, fun s r settled => ?_, fun x e s r settled => ?_⟩
  · exact completes_of_eq (e := pulsed false s.part) rfl r rfl settled.1
  · intro p n q v valid noneC empty ahead
    refine completes_of_eq rfl r ?_ settled.1
    have loads : stepLug true p = captureD (pulsed true p) := (stepLug_eq true p).trans (if_pos valid)
    rw [loads, captureD, matchedHead_empty (z := .C) (p := pulsed true p) noneC, admission_empty (z := .D) (p := pulsed true p) empty]
    exact joinD_untagged (p := pulsed true p) empty ahead
  · intro p n v q valid queue tag h inside empty ahead ahead'
    refine completes_of_eq rfl r ?_ (cancel_atOnce (.expiry .C) (p := pulsed true p) settled.1)
    have loads : stepLug true p = captureD (pulsed true p) := (stepLug_eq true p).trans (if_pos valid)
    rw [loads, captureD, matchedHead_hit (z := .C) (p := pulsed true p) queue inside, admission_empty (z := .D) (p := pulsed true p) empty]
    dsimp only
    rw [matchD_eq (p := pulsed true p) queue tag h]
    exact joinD_tagged (p := writePiece _ (cancel (.expiry .C) ((pulsed true p).setQueue .C []))) empty ahead ahead'

/-! The sorter's eyes (R53, R54, R142). -/

/-- An edge at the E-eye recorded. -/
def edgeE (p : Part) : Part := { p with ztr.eyeE := { p.ztr.eyeE with blocked := true, lead := p.counter .E } }

theorem eEyeLeading_edge {p : Part} (clear : p.ztr.eyeE.blocked = false) (valid : p.ztr.geoValid = true) :
    eEyeLeading p = captureE (edgeE p) := by
  rw [eEyeLeading, clear, if_neg Bool.false_ne_true]
  exact if_pos valid

/-- An edge at the end eye recorded. -/
def edgeX (p : Part) : Part := { p with ztr.eyeX := { p.ztr.eyeX with blocked := true, lead := p.counter .E } }

theorem endEyeLeading_edge {p : Part} (clear : p.ztr.eyeX.blocked = false) (valid : p.ztr.geoValid = true) :
    endEyeLeading p = captureX (edgeX p) := by
  rw [endEyeLeading, clear, if_neg Bool.false_ne_true]
  exact if_pos valid

theorem joinE_untagged {n : Nat} {p : Part} (empty : p.queue .E = [])
    (ahead : strictlyAhead .E (wrap .E (wrap .E (n + p.ztr.geo.gEX) + p.ztr.geo.wEX)) (p.counter .E) = true) :
    joinE none n p = { p.setQueue .E [⟨none, n, wrap .E (n + p.ztr.geo.gEX), p.ztr.geo.wEX, .none⟩] with
      ztr.compares := p.ztr.compares ++ [⟨.expiry .E, wrap .E (wrap .E (n + p.ztr.geo.gEX) + p.ztr.geo.wEX)⟩] } := by
  have joined := joinTail_armed (z := .E) (e := makeEntry .E none n p) (p := p) empty ahead
  rw [joinE, joined]
  rfl

theorem joinE_tagged {t n : Nat} {p : Part} (empty : p.queue .E = [])
    (ahead : strictlyAhead .E (wrap .E (wrap .E (n + p.ztr.geo.gEX) + p.ztr.geo.wEX)) (p.counter .E) = true)
    (ahead' : strictlyAhead .E (wrap .E (n + p.ztr.geo.dSort)) (p.counter .E) = true) :
    joinE (some t) n p = { p.setQueue .E [⟨some t, n, wrap .E (n + p.ztr.geo.gEX), p.ztr.geo.wEX, .none⟩] with
      ztr.compares := p.ztr.compares ++ [⟨.expiry .E, wrap .E (wrap .E (n + p.ztr.geo.gEX) + p.ztr.geo.wEX)⟩,
        ⟨.sort t, wrap .E (n + p.ztr.geo.dSort)⟩] } := by
  have joined := joinTail_armed (z := .E) (e := makeEntry .E (some t) n p) (p := p) empty ahead
  have armed := arm_ahead (e := .sort t) (t := wrap .E (n + p.ztr.geo.dSort)) (p := joinTail .E (makeEntry .E (some t) n p) p)
    (by rw [joined]; exact ahead')
  have geo : (joinTail .E (makeEntry .E (some t) n p) p).ztr.geo = p.ztr.geo := by rw [joined]; rfl
  rw [joinE]
  simp only [geo]
  rw [armed, joined]
  simp only [List.append_assoc]
  rfl

/-- The lug table's head matched at the E-eye (R53, R142). -/
theorem matchE_eq {y : Piece} {e : Entry} {n : Nat} {p : Part} (queue : p.queue .D = [e]) (tag : e.tag = some y.tag)
    (h : HoldsPiece y p) : matchE e n p = joinE (some y.tag) n
      (writePiece { y with state := .beltE, lead := some n } (cancel (.expiry .D) (cancel (.tenoner e.lead) (p.setQueue .D [])))) := by
  rw [matchE, popHead_only queue, tag]
  dsimp only
  rw [show cancel (.expiry .D) (entryGone .D e (p.setQueue .D [])) = cancel (.expiry .D) (cancel (.tenoner e.lead) (p.setQueue .D [])) from rfl,
    lookup_piece (p := cancel (.expiry .D) (cancel (.tenoner e.lead) (p.setQueue .D []))) .ztr h]

theorem undoShare_unreserved {y : Piece} {p : Part} (h : y.state ≠ .assigned) (k : y.reserved = none) : undoShare y p = p := by
  rw [undoShare, if_neg h, release, k]

/-- Settles O23. -/
theorem sorterEyesMoveItems : Obligations.SorterEyesMoveItems := by
  refine ⟨fun s r settled => ?_, fun s r settled => ?_⟩
  · intro p n v far sort clear valid noneE ahead
    refine ⟨?_, fun noneD => ?_⟩
    · intro y e queue tag h inside ahead' q
      refine completes_of_eq rfl r ?_ (cancel_atOnce (.expiry .D) (p := cancel (.tenoner e.lead) (edgeE p)) (cancel_atOnce _ settled.1))
      rw [eEyeLeading_edge (p := p) clear valid, captureE, matchedHead_hit (z := .D) (p := edgeE p) queue inside,
        admission_empty (z := .E) (p := edgeE p) noneE]
      dsimp only
      rw [matchE_eq (p := edgeE p) queue tag h]
      exact joinE_tagged (p := writePiece _ (cancel (.expiry .D) (cancel (.tenoner e.lead) ((edgeE p).setQueue .D [])))) noneE ahead ahead'
    · refine completes_of_eq rfl r ?_ settled.1
      rw [eEyeLeading_edge (p := p) clear valid, captureE, matchedHead_empty (z := .D) (p := edgeE p) noneD,
        admission_empty (z := .E) (p := edgeE p) noneE]
      exact joinE_untagged (p := edgeE p) noneE ahead
  · intro p clear valid
    refine ⟨fun y e queue tag h state unreserved inside => ?_, fun noneE few => ?_⟩
    · refine completes_of_after (f := endEyeLeading) rfl r ?_
        ((retireSlot_atOnce _ _ _).trans (cancel_atOnce (.expiry .E) (cancel_atOnce (.sort y.tag) settled.1)))
      rw [endEyeLeading_edge clear valid, captureX, matchedHead_hit (z := .E) (p := edgeX s.part) queue inside]
      dsimp only
      rw [popHead_only (z := .E) (p := edgeX s.part) queue, entryGone, tag]
      dsimp only
      rw [lookup_piece (p := cancel (.expiry .E) (cancel (.sort y.tag) ((edgeX s.part).setQueue .E []))) .ztr h]
      dsimp only
      rw [undoShare_unreserved (by rw [state]; exact nofun) unreserved]
      exact retire_after _ _ _
    · refine completes_of_eq rfl r ?_ settled.1
      rw [endEyeLeading_edge clear valid, captureX, matchedHead_empty (z := .E) (p := edgeX s.part) noneE, countStray,
        bump_of_lt (by exact few)]
      rfl

end Sys2Proof.Machine

/-! PROOFS. What a head that leaves the line at an expiry or at a full queue takes with it (1.3, 1.4, 2.3, 2.5, 4.4, 6.1). -/

namespace Sys2Proof.Machine

open Sys2Proof

/-! Operations behind a re-evaluation. -/

theorem After.cancel {p q : Part} (h : After p q) (e : Event) : After (cancel e p) (cancel e q) :=
  h.map (f := Machine.cancel e) (fun _ _ _ _ _ _ => rfl) fun _ => rfl

theorem retireSlot_reshaped (x : Vector LinkRec 7) (d : Option (List Notice)) (a : Bool) (b : List PermitCond) (c : Bool) (i : SlotNo)
    (r : Retire) (p : Part) : retireSlot i r (reshaped x d a b c p) = reshaped x d a b c (retireSlot i r p) := by
  have same : (reshaped x d a b c p).slot i = p.slot i := rfl
  unfold retireSlot
  dsimp only
  rw [same]
  split
  · rfl
  · cases r <;> rfl

theorem retireSlot_links (i : SlotNo) (r : Retire) (p : Part) : (retireSlot i r p).lif = p.lif := by
  unfold retireSlot
  dsimp only
  split
  · rfl
  · cases r <;> rfl

theorem After.retireSlot {p q : Part} (h : After p q) (i : SlotNo) (c : Retire) : After (retireSlot i c p) (retireSlot i c q) :=
  h.map (fun x d a b e p => retireSlot_reshaped x d a b e i c p) fun p => by rw [retireSlot_links]

theorem After.retire {p q : Part} (h : After p q) (i : SlotNo) (c : Retire) : After (Machine.retireSlot i c p) (retire i c q) :=
  (h.retireSlot i c).trans (retire_after i c q)

theorem HoldsStrip.behind {s : Strip} {p q : Part} (h : HoldsStrip s p) (k : After p q) : HoldsStrip s q := h.congr k.1.2.1

theorem HoldsPiece.behind {y : Piece} {p q : Part} (h : HoldsPiece y p) (k : After p q) : HoldsPiece y q := h.congr k.1.2.1

theorem After.queue {p q : Part} (h : After p q) (z : Zone) : q.queue z = p.queue z := by
  obtain ⟨x, d, a, b, c, e⟩ := h.shape
  rw [show q = reshaped x d a b c p from e, queue_reshaped]

/-! The only entry of a zone leaves it (R39, R44). -/

/-- The part without the only entry of a zone, its expiry and its own compare. -/
def gone (z : Zone) (e : Entry) (p : Part) : Part := cancel (.expiry z) (entryGone z e (p.setQueue z []))

theorem entryGone_shape (z : Zone) (e : Entry) (p : Part) : entryGone z e p = p ∨ ∃ c, entryGone z e p = cancel c p := by
  unfold entryGone
  split
  · exact .inl rfl
  · exact .inl rfl
  · exact .inl rfl
  · exact .inr ⟨_, rfl⟩
  · split
    · exact .inl rfl
    · exact .inr ⟨_, rfl⟩

theorem gone_rst (z : Zone) (e : Entry) (p : Part) : (gone z e p).rst = p.rst := by
  rw [gone, cancel_rst, entryGone_rst]
  cases z <;> rfl

theorem gone_atOnce {z : Zone} {p : Part} (e : Entry) (h : p.ztr.atOnce = []) : (gone z e p).ztr.atOnce = [] := by
  have queued : (p.setQueue z []).ztr.atOnce = [] := by cases z <;> exact h
  rcases entryGone_shape z e (p.setQueue z []) with same | ⟨c, cancelled⟩
  · rw [gone, same]; exact cancel_atOnce _ queued
  · rw [gone, cancelled]; exact cancel_atOnce _ (cancel_atOnce _ queued)

theorem After.gone {p q : Part} (h : After p q) (z : Zone) (e : Entry) : After (gone z e p) (gone z e q) := by
  refine h.map (fun x d a b c p => ?_) fun p => ?_
  · rw [Machine.gone, Machine.gone, setQueue_reshaped]
    unfold entryGone
    cases z with
    | E => cases e.tag <;> rfl
    | _ => rfl
  · have queued : (p.setQueue z []).lif.link = p.lif.link := by cases z <;> rfl
    rcases entryGone_shape z e (p.setQueue z []) with same | ⟨c, cancelled⟩
    · rw [Machine.gone, same]; exact queued
    · rw [Machine.gone, cancelled]; exact queued

theorem gone_setQueue {z : Zone} (e : Entry) (p : Part) :
    (gone z e p).ort = p.ort ∧ (gone z e p).bas = p.bas ∧ (gone z e p).acu = p.acu ∧ (gone z e p).cpl = p.cpl := by
  rcases entryGone_shape z e (p.setQueue z []) with same | ⟨c, cancelled⟩
  · rw [gone, same]; cases z <;> exact ⟨rfl, rfl, rfl, rfl⟩
  · rw [gone, cancelled]; cases z <;> exact ⟨rfl, rfl, rfl, rfl⟩

/-! Shares of orders and bundles undone (R11, R159, R162, R184). -/

theorem release_reserved {y : Piece} {p : Part} {o : OrderNo} {r : Order} (h : y.reserved = some o) (k : p.order o = some r) :
    release y p = writePiece { y with reserved := none } (p.setOrder o (some { r with reservedArea := r.reservedArea - y.area })) := by
  rw [release, h]
  dsimp only
  rw [lowerReserved, changeOrder_some k]

theorem reevalClosing_opened {b : BayNo} {p : Part} (h : (p.bay b).state = .opened) : reevalClosing b p = p := by
  rw [reevalClosing, h, if_neg nofun]

/-- The part with a kick cancelled, the area of its piece, which is not short, out of the transit of bundle u and order r. -/
def kickCancelled (tag area : Nat) (b : BayNo) (u : Bundle) (r : Order) (p : Part) : Part :=
  ((cancel (.kick b tag) (p.setKickQueue b ((p.kickQueue b).filter fun k => k.tag != tag))).setBay b { p.bay b with
    bundle := some { u with transit := u.transit - area } }).setOrder u.slot (some { r with transitArea := r.transitArea - area })

/-- A cancelled kick's area undone, but for the re-evaluation of its bay. -/
theorem undoTransit_eq {tag area len : Nat} {b : BayNo} {u : Bundle} {r : Order} {p : Part} (bundle : (p.bay b).bundle = some u)
    (order : p.order u.slot = some r) (long : r.shortLength ≤ len) :
    undoTransit b area len (removeKick b tag p) = reevalClosing b (kickCancelled tag area b u r p) := by
  have short : isShort r len = false := decide_eq_false (by omega)
  have bundle' : ((removeKick b tag p).bay b).bundle = some u := bundle
  have order' : (removeKick b tag p).order u.slot = some r := order
  rw [undoTransit, bundle']
  dsimp only
  rw [order']
  dsimp only
  simp only [short, Bool.false_eq_true, if_false]
  rw [changeBundle, bundle', changeOrder_some (r := r) (by exact order)]
  rfl

/-- In a bay that is OPEN nothing more changes. -/
theorem kickCancelled_opened {tag area : Nat} {b : BayNo} {u : Bundle} {r : Order} {p : Part} (state : (p.bay b).state = .opened) :
    reevalClosing b (kickCancelled tag area b u r p) = kickCancelled tag area b u r p := by
  refine reevalClosing_opened ?_
  rw [kickCancelled, show ∀ (p : Part) (o : OrderNo) (x : Option Order), (p.setOrder o x).bay b = p.bay b from fun _ _ _ => rfl, bay_setBay]
  simpa using state

theorem cancelKick_eq {y : Piece} {b : BayNo} {u : Bundle} {r : Order} {p : Part} (bay : y.bay = some b)
    (bundle : (p.bay b).bundle = some u) (order : p.order u.slot = some r) (long : r.shortLength ≤ y.len) :
    cancelKick y p = reevalClosing b (kickCancelled y.tag y.area b u r p) := by
  rw [cancelKick, bay]
  exact undoTransit_eq bundle order long

theorem cancelKick_opened {y : Piece} {b : BayNo} {u : Bundle} {r : Order} {p : Part} (bay : y.bay = some b)
    (state : (p.bay b).state = .opened) (bundle : (p.bay b).bundle = some u) (order : p.order u.slot = some r)
    (long : r.shortLength ≤ y.len) : cancelKick y p = kickCancelled y.tag y.area b u r p := by
  rw [cancelKick_eq bay bundle order long, kickCancelled_opened state]

/-! The loss of a zone's only entry (R47). -/

theorem loseHead_untagged {z : Zone} {e : Entry} {p : Part} (queue : p.queue z = [e]) (tag : e.tag = none) : loseHead z p = gone z e p := by
  rw [loseHead, queue]
  dsimp only
  rw [popHead_only queue, tag]
  rfl

theorem loseHead_strip {z : Zone} {e : Entry} {x : Strip} {p : Part} (queue : p.queue z = [e]) (tag : e.tag = some x.tag)
    (h : HoldsStrip x p) : loseHead z p = loseStrip x (gone z e p) := by
  rw [loseHead, queue]
  dsimp only
  rw [popHead_only queue, tag]
  dsimp only
  rw [show cancel (.expiry z) (entryGone z e (p.setQueue z [])) = gone z e p from rfl, lookup_strip .ztr (h.congr (gone_rst z e p))]

theorem loseHead_piece {z : Zone} {e : Entry} {y : Piece} {p : Part} (queue : p.queue z = [e]) (tag : e.tag = some y.tag)
    (h : HoldsPiece y p) : loseHead z p = losePiece y (gone z e p) := by
  rw [loseHead, queue]
  dsimp only
  rw [popHead_only queue, tag]
  dsimp only
  rw [show cancel (.expiry z) (entryGone z e (p.setQueue z [])) = gone z e p from rfl, lookup_piece .ztr (h.congr (gone_rst z e p))]

theorem loseStrip_unplanned {x : Strip} {p : Part} (state : x.state ≠ .planned) :
    After (retireSlot (slotOf x.tag) (.strip .lost) (cancel (.deadline x.tag) (leavePlanner x.tag p))) (loseStrip x p) := by
  rw [loseStrip, if_neg state]
  exact retire_after _ _ _

theorem losePiece_unreserved {y : Piece} {p : Part} (state : y.state ≠ .assigned) (unreserved : y.reserved = none) :
    After (retireSlot (slotOf y.tag) (.piece .lost) p) (losePiece y p) := by
  rw [losePiece, undoShare_unreserved state unreserved]
  exact retire_after _ _ _

theorem losePiece_reserved {y : Piece} {o : OrderNo} {r : Order} {p : Part} (h : HoldsPiece y p) (state : y.state ≠ .assigned)
    (reserved : y.reserved = some o) (order : p.order o = some r) :
    After (retireSlot (slotOf y.tag) (.piece .lost) (p.setOrder o (some { r with reservedArea := r.reservedArea - y.area })))
      (losePiece y p) := by
  rw [losePiece, undoShare, if_neg state, release_reserved reserved order]
  exact retire_writePiece_after (y := { y with reserved := none }) .lost h rfl rfl

theorem losePiece_assigned {y : Piece} {b : BayNo} {u : Bundle} {r : Order} {p : Part} (state : y.state = .assigned) (bay : y.bay = some b)
    (opened : (p.bay b).state = .opened) (bundle : (p.bay b).bundle = some u) (order : p.order u.slot = some r)
    (long : r.shortLength ≤ y.len) : After (retireSlot (slotOf y.tag) (.piece .lost) (kickCancelled y.tag y.area b u r p)) (losePiece y p) := by
  rw [losePiece, undoShare, if_pos state, cancelKick_opened bay opened bundle order long]
  exact retire_after _ _ _

/-! The pieces of a strip that ends (R8, R12). -/

/-- A plan of one place, its piece in a state asked for. -/
theorem endPieces_single {x : Strip} {y : Piece} {pl : PlanEntry} {value : Nat} {states : List PieceState} {p : Part} (reader : Reader)
    (cause : PieceRetire) (plan : x.plan = some ⟨value, [pl]⟩) (tag : pl.tag = some y.tag) (h : HoldsPiece y p)
    (state : states.contains y.state = true) : endPieces reader cause states x p = (false, endPiece y cause p) := by
  rw [endPieces, plan]
  simp only [Option.map_some, Option.getD_some, List.foldl_cons, List.foldl_nil]
  rw [endPlace, if_neg nofun, tag]
  dsimp only
  rw [lookup_piece reader h]
  dsimp only
  rw [if_pos state]

theorem endPiece_reserved {y : Piece} {o : OrderNo} {r : Order} {p : Part} (cause : PieceRetire) (h : HoldsPiece y p)
    (state : y.state = .planned) (reserved : y.reserved = some o) (order : p.order o = some r) :
    After (retireSlot (slotOf y.tag) (.piece cause) (p.setOrder o (some { r with reservedArea := r.reservedArea - y.area })))
      (endPiece y cause p) := by
  unfold endPiece
  dsimp only
  rw [if_neg (by rw [state]; exact nofun), release_reserved reserved order]
  exact retire_writePiece_after (y := { y with reserved := none }) cause h rfl rfl

theorem loseStrip_planned {x : Strip} {y : Piece} {pl : PlanEntry} {value : Nat} {o : OrderNo} {r : Order} {p : Part}
    (planned : x.state = .planned) (plan : x.plan = some ⟨value, [pl]⟩) (tag : pl.tag = some y.tag) (h : HoldsPiece y p)
    (state : y.state = .planned) (reserved : y.reserved = some o) (order : p.order o = some r) :
    After (retireSlot (slotOf x.tag) (.strip .lost) (retireSlot (slotOf y.tag) (.piece .discarded)
      ((cancel (.deadline x.tag) (leavePlanner x.tag p)).setOrder o (some { r with reservedArea := r.reservedArea - y.area }))))
      (loseStrip x p) := by
  have ended := endPieces_single (states := [.planned]) (p := cancel (.deadline x.tag) (leavePlanner x.tag p)) .ztr .discarded plan tag h
    (by rw [state]; rfl)
  have left := endPiece_reserved (p := cancel (.deadline x.tag) (leavePlanner x.tag p)) .discarded h state reserved order
  rw [loseStrip, if_pos planned, ended, unlessCleared, if_neg Bool.false_ne_true]
  exact left.retire _ _

end Sys2Proof.Machine

/-! PROOFS. Compares that act: losses, the deadline, and targets that are no event (1.3, 1.4, 2.1, 2.5, 4.4, 6.1). -/

namespace Sys2Proof.Machine

open Sys2Proof

theorem gone_spent (z : Zone) (e : Entry) (p : Part) : gone z e (spent (.expiry z) p) = gone z e p := by
  have twice (es : List Event) (f : Event → Bool) :
      ((es.filter fun x => x != .expiry z).filter f).filter (fun x => x != .expiry z) = (es.filter f).filter fun x => x != .expiry z := by
    simp only [List.filter_filter]
    exact List.filter_congr fun x _ => by cases x != Event.expiry z <;> simp
  have once (es : List Event) : (es.filter fun x => x != .expiry z).filter (fun x => x != .expiry z) = es.filter fun x => x != .expiry z := by
    simp
  cases z
  case D => simp only [gone, entryGone, spent, cancel, Part.setQueue, Part.setZone, twice] <;> rfl
  case E =>
    cases tag : e.tag with
    | none => simp only [gone, entryGone, tag, spent, cancel, Part.setQueue, Part.setZone, once] <;> rfl
    | some t => simp only [gone, entryGone, tag, spent, cancel, Part.setQueue, Part.setZone, twice] <;> rfl
  all_goals simp only [gone, entryGone, spent, cancel, Part.setQueue, Part.setZone, once] <;> rfl

theorem expires {z : Zone} {p : Part} (due : .expiry z ∈ p.ztr.due) : takeDue (.expiry z) p = loseHead z (spent (.expiry z) p) :=
  takeDue_of_mem due

/-- The expiry of a lone entry: what is lost with it, from the loss of its head. -/
theorem expiry_completes {z : Zone} {s : State} {q : Part} (r : Running s.part) (due : .expiry z ∈ s.part.ztr.due)
    (after : After q (loseHead z (spent (.expiry z) s.part))) (at_once : q.ztr.atOnce = []) : Completes (.handoffExpiry z) s q :=
  completes_of_after rfl r (by rw [expires due]; exact after) at_once

theorem takeDeadline_eq {x : Strip} {p : Part} (h : HoldsStrip x p) : takeDeadline x.tag p =
    if x.state = .scanning ∨ x.state = .mapped then (rejectStrip .cpl .noMap x p).2 else p := by
  rw [takeDeadline, lookup_strip .cpl h]

/-- A compare that is not due is no event. -/
theorem eventCommand_idle {e : Event} {s : State} (r : Running s.part) (settled : Settled s.part) (absent : e ∉ s.part.ztr.due)
    (head : ∀ t, e = .saw t → ∀ x ∈ s.part.acu.saw.head?, x.target = t) : Completes (eventCommand e) s s.part := by
  have idle {c : Instr} (hc : exec c s = next (run (takeDue e)) s) : Completes c s s.part :=
    completes_of_eq hc r (takeDue_of_not_mem absent) settled.1
  cases e with
  | expiry z => exact idle rfl
  | deadline t => exact idle rfl
  | sort t => exact idle rfl
  | tenoner l => exact idle rfl
  | lastCut => exact idle rfl
  | wasteOpen t => exact idle rfl
  | wasteShut t => exact idle rfl
  | kick b t => exact idle rfl
  | saw t =>
    refine completes_of_eq (f := fireSaw) rfl r ?_ settled.1
    unfold fireSaw
    split
    · rfl
    · next x first =>
      have target : x.target = t := head t rfl x (by rw [first]; rfl)
      rw [target]
      exact takeDue_of_not_mem absent

/-- The loss of a lone strip at its expiry. -/
theorem expiry_strip {z : Zone} {e : Entry} {x : Strip} {s : State} (r : Running s.part) (settled : Settled s.part)
    (due : .expiry z ∈ s.part.ztr.due) (queue : s.part.queue z = [e]) (tag : e.tag = some x.tag) (h : HoldsStrip x (gone z e s.part)) :
    (x.state ≠ .planned → Completes (.handoffExpiry z) s (retireSlot (slotOf x.tag) (.strip .lost)
      (cancel (.deadline x.tag) (leavePlanner x.tag (gone z e s.part)))))
    ∧ ∀ (y : Piece) (pl : PlanEntry) (value : Nat) (o : OrderNo) (k : Order), x.state = .planned → x.plan = some ⟨value, [pl]⟩ →
      pl.tag = some y.tag → HoldsPiece y (gone z e s.part) → y.state = .planned → y.reserved = some o →
      (gone z e s.part).order o = some k →
      Completes (.handoffExpiry z) s (retireSlot (slotOf x.tag) (.strip .lost) (retireSlot (slotOf y.tag) (.piece .discarded)
        ((cancel (.deadline x.tag) (leavePlanner x.tag (gone z e s.part))).setOrder o
          (some { k with reservedArea := k.reservedArea - y.area })))) := by
  have at_once : (cancel (.deadline x.tag) (leavePlanner x.tag (gone z e s.part))).ztr.atOnce = [] :=
    cancel_atOnce _ (gone_atOnce e settled.1)
  have lost : loseHead z (spent (.expiry z) s.part) = loseStrip x (gone z e s.part) := by
    rw [loseHead_strip (p := spent (.expiry z) s.part) (by cases z <;> exact queue) tag (h.congr (gone_rst z e s.part).symm), gone_spent]
  refine ⟨fun state => expiry_completes r due ?_ ((retireSlot_atOnce _ _ _).trans at_once),
    fun y pl value o k planned plan place h' state reserved order => expiry_completes r due ?_
      ((retireSlot_atOnce _ _ _).trans ((retireSlot_atOnce _ _ _).trans at_once))⟩
  · rw [lost]
    exact loseStrip_unplanned state
  · rw [lost]
    exact loseStrip_planned planned plan place h' state reserved order

/-- The loss of a lone piece at its expiry. -/
theorem expiry_piece {z : Zone} {e : Entry} {y : Piece} {s : State} {q : Part} (r : Running s.part)
    (due : .expiry z ∈ s.part.ztr.due) (queue : s.part.queue z = [e]) (tag : e.tag = some y.tag) (h : HoldsPiece y (gone z e s.part))
    (after : After (retireSlot (slotOf y.tag) (.piece .lost) q) (losePiece y (gone z e s.part))) (at_once : q.ztr.atOnce = []) :
    Completes (.handoffExpiry z) s (retireSlot (slotOf y.tag) (.piece .lost) q) := by
  refine expiry_completes r due ?_ ((retireSlot_atOnce _ _ _).trans at_once)
  rw [loseHead_piece (p := spent (.expiry z) s.part) (by cases z <;> exact queue) tag (h.congr (gone_rst z e s.part).symm), gone_spent]
  exact after

/-- Settles O24. -/
theorem trackerComparesAct : Obligations.TrackerComparesAct := by
  have untagged {z : Zone} {e : Entry} {s : State} (r : Running s.part) (settled : Settled s.part) (due : .expiry z ∈ s.part.ztr.due)
      (queue : s.part.queue z = [e]) (tag : e.tag = none) : Completes (.handoffExpiry z) s (gone z e s.part) := by
    refine expiry_completes r due ?_ (gone_atOnce e settled.1)
    rw [loseHead_untagged (p := spent (.expiry z) s.part) (by cases z <;> exact queue) tag, gone_spent]
    exact .refl _
  refine ⟨fun e s r settled absent head => eventCommand_idle r settled absent head, fun e s r settled => ?_,
    fun z e s r settled => ?_, fun x s r settled due h => ⟨fun early => ?_, fun not_scanning not_mapped => ?_⟩⟩
  · intro p due queue
    exact ⟨untagged r settled due queue, fun x tag h state => (expiry_strip r settled due queue tag h).1 state⟩
  · intro p less due queue
    have at_once : (gone z e s.part).ztr.atOnce = [] := gone_atOnce e settled.1
    refine ⟨untagged r settled due queue, fun x tag h => ?_, fun y tag h => ⟨fun state unreserved => ?_, fun o k state reserved order => ?_,
      fun b u k state bay opened bundle order long => ?_⟩⟩
    · obtain ⟨unplanned, planned⟩ := expiry_strip r settled due queue tag h
      exact ⟨unplanned, fun y pl value o k state plan place h' state' reserved order _ =>
        planned y pl value o k state plan place h' state' reserved order⟩
    · exact expiry_piece r due queue tag h (losePiece_unreserved state unreserved) at_once
    · exact expiry_piece r due queue tag h (losePiece_reserved h state reserved order) at_once
    · exact expiry_piece r due queue tag h (losePiece_assigned state bay opened bundle order long) (cancel_atOnce _ at_once)
  · have body : takeDue (.deadline x.tag) s.part = takeDeadline x.tag (spent (.deadline x.tag) s.part) := takeDue_of_mem due
    rw [takeDeadline_eq (p := spent (.deadline x.tag) s.part) h, if_pos early, rejectStrip_early .cpl .noMap
      (by rcases early with e | e <;> rw [e] <;> decide) (by rcases early with e | e <;> rw [e] <;> decide)
      (by rcases early with e | e <;> rw [e] <;> decide)] at body
    refine completes_of_eq rfl r ?_ (cancel_atOnce _ settled.1)
    rw [body]
    have once : cancel (.deadline x.tag) (leavePlanner x.tag (spent (.deadline x.tag) s.part)) =
        cancel (.deadline x.tag) (leavePlanner x.tag s.part) := by simp [cancel, leavePlanner, spent]
    rw [once]
  · have body : takeDue (.deadline x.tag) s.part = takeDeadline x.tag (spent (.deadline x.tag) s.part) := takeDue_of_mem due
    rw [takeDeadline_eq (p := spent (.deadline x.tag) s.part) h, if_neg (not_or.2 ⟨not_scanning, not_mapped⟩)] at body
    exact completes_of_eq rfl r body settled.1

end Sys2Proof.Machine

/-! PROOFS. Edges that change only their eye, and captures that no zone takes (2.2, 2.3, 2.10). -/

namespace Sys2Proof.Machine

open Sys2Proof

/-! A fault set (R56). -/

theorem setFault_first {c : FaultCause} {p : Part} (h : p.ztr.fault = none) : setFault c p = reevaluate true { p with ztr.fault := some c } := by
  rw [setFault, h, Option.isSome_none, if_neg Bool.false_ne_true]

theorem permitNow_fault {c : FaultCause} {p : Part} (h : p.ztr.fault = some c) : permitNow p = false := by
  have stands : permitReport p ≠ [] := fun none_stands => by
    obtain ⟨-, no_fault, -⟩ := (permitReport_eq_nil_iff p).1 none_stands
    rw [h] at no_fault
    exact nomatch no_fault
  rw [permitNow, List.isEmpty_eq_false_iff.2 stands, Bool.false_and]

/-- A re-evaluation that reports, whether PERMIT changes or not. -/
theorem reevaluate_reports (p : Part) : reevaluate true p = raise (linsta (recompute p)) (recompute p) := by
  unfold reevaluate
  simp only [Bool.true_or, if_true]
  rfl

/-- A command whose body ends in a fault reports it once. -/
theorem leavesFrames_reported {c : Instr} {f : Part → Part} {s : State} {e : Part} (hc : exec c s = next (run f) s)
    (r : Running s.part) (body : f s.part = reevaluate true e) (settled : Settled e)
    (up : (e.link 0).state = .up) (room : (e.link 0).transmit.length < 56) (none_waits : (e.link 0).requests = []) :
    LeavesFrames c s 0 ((e.link 0).transmit ++ [⟨.notice, 0x85, 0, (linsta (recompute e)).fields⟩]) := by
  have sent : (reevaluate true e).link 0 = { e.link 0 with transmit := (e.link 0).transmit
      ++ [⟨.notice, 0x85, 0, (linsta (recompute e)).fields⟩] } := by
    have composed := compose_supervisor (p := recompute e) (by rw [recompute_link]; exact up)
      (by rw [recompute_link]; exact room) 0x85 (linsta (recompute e)).fields
    rw [recompute_link] at composed
    rw [reevaluate_reports, raise_now ((recompute_deferred e).trans settled.2),
      show linsta (recompute e) = ⟨.supervisor, 0x85, (linsta (recompute e)).fields⟩ from rfl, composed, Part.link_setLink_same]
  have settled' : Settled (reevaluate true e) :=
    ⟨(reevaluate_after true e).atOnce.trans settled.1, reevaluate_deferred_none true e settled.2⟩
  refine leavesFrames_of_finish hc r ?_
  rw [body, finish_link_still settled' (by rw [sent]; exact none_waits) (reevaluate_idem true e), sent]

/-! Captures out of order, and onto a full queue (R39, R40). -/

theorem admission_stray {z : Zone} {n : Nat} {t : Entry} {p : Part} (tail : (p.queue z).getLast? = some t)
    (behind : strictlyAhead z n t.lead = false) : admission z n p = .stray := by
  rw [admission, tail]
  simp [precedes, behind]

theorem admission_full {z : Zone} {n : Nat} {t : Entry} {p : Part} (tail : (p.queue z).getLast? = some t)
    (ahead : strictlyAhead z n t.lead = true) (full : queueCap z ≤ (p.queue z).length) : admission z n p = .full := by
  rw [admission, tail]
  simp [precedes, ahead, full]

/-- A handoff whose command's body is a capture. -/
structure Captures (c : Handoff) (f : Part → Part) : Prop where
  runs : ∀ s, exec c.command s = next (run f) s
  stray : ∀ p : Part, p.ztr.geoValid = true → c.noEdge p = false →
    admission c.down ((c.edge p).counter c.down) (c.edge p) = .stray → f p = countStray (c.edge p)
  full : ∀ p : Part, p.ztr.geoValid = true → c.noEdge p = false →
    admission c.down ((c.edge p).counter c.down) (c.edge p) = .full →
    f p = overflow c.up c.down (matchedHead c.up (c.edge p)).isSome (c.edge p)
  settled : ∀ p : Part, (c.edge p).ztr.atOnce = p.ztr.atOnce
  strays : ∀ p : Part, (c.edge p).ztr.stray = p.ztr.stray
  room : queueCap c.down = if c.down = .B then 32 else 64

theorem captures_AB : Captures captureAB bEyeLeading where
  runs _ := rfl
  stray p valid clear (outcome : admission .B ((edgeB p).counter .B) (edgeB p) = .stray) := by
    rw [bEyeLeading_edge (p := p) clear valid, captureB, outcome]
    rfl
  full p valid clear (outcome : admission .B ((edgeB p).counter .B) (edgeB p) = .full) := by
    rw [bEyeLeading_edge (p := p) clear valid, captureB, outcome]
    rfl
  settled _ := rfl
  strays _ := rfl
  room := rfl

theorem captures_CD : Captures captureCD (stepLug true) where
  runs _ := rfl
  stray p valid _ (outcome : admission .D ((pulsed true p).counter .D) (pulsed true p) = .stray) := by
    have taken : stepLug true p = captureD (pulsed true p) := (stepLug_eq true p).trans (if_pos valid)
    rw [taken, captureD, outcome]
    rfl
  full p valid _ (outcome : admission .D ((pulsed true p).counter .D) (pulsed true p) = .full) := by
    have taken : stepLug true p = captureD (pulsed true p) := (stepLug_eq true p).trans (if_pos valid)
    rw [taken, captureD, outcome]
    rfl
  settled _ := rfl
  strays _ := rfl
  room := rfl

theorem captures_DE : Captures captureDE eEyeLeading where
  runs _ := rfl
  stray p valid clear (outcome : admission .E ((edgeE p).counter .E) (edgeE p) = .stray) := by
    rw [eEyeLeading_edge (p := p) clear valid, captureE, outcome]
    rfl
  full p valid clear (outcome : admission .E ((edgeE p).counter .E) (edgeE p) = .full) := by
    rw [eEyeLeading_edge (p := p) clear valid, captureE, outcome]
    rfl
  settled _ := rfl
  strays _ := rfl
  room := rfl

/-- A capture out of order counts as a stray. -/
theorem Captures.strayed {c : Handoff} {f : Part → Part} (k : Captures c f) {t : Entry} {s : State} (r : Running s.part)
    (settled : Settled s.part) (valid : s.part.ztr.geoValid = true) (few : s.part.ztr.stray < 4294967295)
    (edge : c.noEdge s.part = false) (tail : ((c.edge s.part).queue c.down).getLast? = some t)
    (behind : strictlyAhead c.down ((c.edge s.part).counter c.down) t.lead = false) :
    Completes c.command s { c.edge s.part with ztr.stray := (c.edge s.part).ztr.stray + 1 } := by
  refine completes_of_eq (k.runs s) r ?_ ((k.settled s.part).trans settled.1)
  rw [k.stray s.part valid edge (admission_stray tail behind), countStray, bump_of_lt (by rw [k.strays]; exact few)]

/-- What the capture onto a full queue leaves, from what becomes of the head. -/
theorem Captures.overflowed {c : Handoff} {f : Part → Part} (k : Captures c f) {t : Entry} {s : State} (r : Running s.part)
    (settled : Settled s.part) (valid : s.part.ztr.geoValid = true)
    (edge : c.noEdge s.part = false) (tail : ((c.edge s.part).queue c.down).getLast? = some t)
    (ahead : strictlyAhead c.down ((c.edge s.part).counter c.down) t.lead = true)
    (full : (if c.down = .B then 32 else 64) ≤ ((c.edge s.part).queue c.down).length) (fault : (c.edge s.part).ztr.fault = none) :
    let m := { c.edge s.part with ztr.fault := some (.overflow c.down) }
    (((c.edge s.part).queue c.up) = [] → Completes c.command s m)
    ∧ ∀ e : Entry, ((c.edge s.part).queue c.up) = [e] → inWindow c.up ((c.edge s.part).counter c.up) e.expect e.half = true →
      ∀ q, (∀ m', After m m' → After q (loseHead c.up m')) → q.ztr.atOnce = [] → Completes c.command s q := by
  intro m
  have at_once : m.ztr.atOnce = [] := (k.settled s.part).trans settled.1
  have reported : After m (setFault (.overflow c.down) (c.edge s.part)) := by
    rw [setFault_first fault]
    exact reevaluate_after true m
  have body := k.full s.part valid edge (admission_full tail ahead (by rw [k.room]; exact full))
  refine ⟨fun empty => completes_of_after (k.runs s) r ?_ at_once, fun e queue inside q lost at_once' =>
    completes_of_after (k.runs s) r ?_ at_once'⟩
  · rw [body, matchedHead_empty empty]
    exact reported
  · rw [body, matchedHead_hit queue inside]
    exact lost _ reported

/-- The loss of a zone's lone head, behind a re-evaluation. -/
theorem loseHead_behind {z : Zone} {e : Entry} {p m : Part} (queue : p.queue z = [e]) (after : After p m) :
    (e.tag = none → After (gone z e p) (loseHead z m))
    ∧ (∀ x : Strip, e.tag = some x.tag → HoldsStrip x p → x.state ≠ .planned →
      After (retireSlot (slotOf x.tag) (.strip .lost) (cancel (.deadline x.tag) (leavePlanner x.tag (gone z e p)))) (loseHead z m))
    ∧ ∀ y : Piece, e.tag = some y.tag → HoldsPiece y p → y.state ≠ .assigned → y.reserved = none →
      After (retireSlot (slotOf y.tag) (.piece .lost) (gone z e p)) (loseHead z m) := by
  have queue' : m.queue z = [e] := (after.queue z).trans queue
  have left : After (gone z e p) (gone z e m) := after.gone z e
  refine ⟨fun tag => ?_, fun x tag h state => ?_, fun y tag h state unreserved => ?_⟩
  · rw [loseHead_untagged queue' tag]
    exact left
  · rw [loseHead_strip queue' tag (h.behind after)]
    have prepared : After (cancel (.deadline x.tag) (leavePlanner x.tag (gone z e p))) (cancel (.deadline x.tag) (leavePlanner x.tag (gone z e m))) :=
      left.map (f := fun p => cancel (.deadline x.tag) (leavePlanner x.tag p)) (fun _ _ _ _ _ _ => rfl) fun _ => rfl
    exact (prepared.retireSlot _ _).trans (loseStrip_unplanned state)
  · rw [loseHead_piece queue' tag (h.behind after)]
    exact (left.retireSlot _ _).trans (losePiece_unreserved state unreserved)

/-- A zone's lone head gone before or after LINE FAULT is set. -/
theorem gone_fault (z : Zone) (e : Entry) (c : Option FaultCause) (p : Part) :
    gone z e { p with ztr.fault := c } = { gone z e p with ztr.fault := c } := by
  cases z with
  | E => cases tag : e.tag <;> simp only [gone, entryGone, tag] <;> rfl
  | A => rfl
  | B => rfl
  | C => rfl
  | D => rfl

/-- Settles O15. -/
theorem edgesChangeTheirEye : Obligations.EdgesChangeTheirEye := by
  refine ⟨⟨?_, ?_⟩, fun s r settled => ⟨fun blocked => ?_, fun blocked => ?_⟩, fun t s r settled valid few => ⟨?_, ?_⟩⟩
  · simp only [leadingEdges, List.forall_mem_cons, List.not_mem_nil, false_implies, implies_true, and_true]
    exact ⟨fun s r settled blocked => completes_of_eq (f := aEyeLeading) rfl r (if_pos blocked) settled.1,
      fun s r settled blocked => completes_of_eq (f := bEyeLeading) rfl r (if_pos blocked) settled.1,
      fun s r settled blocked => completes_of_eq (f := cEyeLeading) rfl r (if_pos blocked) settled.1,
      fun s r settled blocked => completes_of_eq (f := eEyeLeading) rfl r (if_pos blocked) settled.1,
      fun s r settled blocked => completes_of_eq (f := endEyeLeading) rfl r (if_pos blocked) settled.1⟩
  · have still {b : Bool} {p q : Part} (clear : b = false) : (if (!b) = true then p else q) = p := by rw [clear]; rfl
    have idle {b : Bool} {p q : Part} (clear : b = false) : (if b = true then q else p) = p := by rw [clear]; rfl
    simp only [trailingEdges, List.forall_mem_cons, List.not_mem_nil, false_implies, implies_true, and_true]
    exact ⟨fun s r settled clear => completes_of_eq (f := aEyeTrailing) rfl r (still clear) settled.1,
      fun s r settled clear => completes_of_eq (f := bEyeTrailing) rfl r (still clear) settled.1,
      fun s r settled clear => completes_of_eq (f := cEyeTrailing) rfl r (still clear) settled.1,
      fun s r settled clear => completes_of_eq (f := sorterTrailing .eEye) rfl r (idle clear) settled.1,
      fun s r settled clear => completes_of_eq (f := sorterTrailing .endEye) rfl r (idle clear) settled.1⟩
  · exact completes_of_eq (f := sorterTrailing .eEye) rfl r (if_pos blocked) settled.1
  · exact completes_of_eq (f := sorterTrailing .endEye) rfl r (if_pos blocked) settled.1
  · intro p f clear tail
    have body : aEyeLeading s.part = enterLine (edgeA s.part) := (aEyeLeading_edge (p := s.part) clear).trans (if_pos valid)
    refine ⟨fun behind => completes_of_eq rfl r ?_ settled.1, fun ahead full fault => ?_⟩
    · rw [body, enterLine, admission_stray (n := (edgeA s.part).counter .A) (p := edgeA s.part) tail behind]
      dsimp only
      rw [countStray, bump_of_lt (by exact few)]
      rfl
    · have faulted : aEyeLeading s.part = reevaluate true f := by
        rw [body, enterLine, admission_full (n := (edgeA s.part).counter .A) (p := edgeA s.part) tail ahead full]
        exact setFault_first (p := edgeA s.part) fault
      refine ⟨completes_of_after rfl r (by rw [faulted]; exact reevaluate_after true f) settled.1, fun up room none_waits => ?_⟩
      obtain ⟨u, ran, frames⟩ := leavesFrames_reported (c := .aEyeLeadingEdge) rfl r faulted settled up room none_waits
      refine ⟨u, ran, frames.trans ?_⟩
      have off : permitNow f = false := permitNow_fault rfl
      rw [linsta_fields, off, show f.ztr.fault = some (.overflow .A) from rfl, faultItems_eq]
      rfl
  · have general {c : Handoff} {g : Part → Part} (k : Captures c g) :
        let p := c.edge s.part
        let f := fun q : Part => { q with ztr.fault := some (.overflow c.down) }
        c.noEdge s.part = false → (p.queue c.down).getLast? = some t →
        (strictlyAhead c.down (p.counter c.down) t.lead = false → Completes c.command s { p with ztr.stray := p.ztr.stray + 1 })
        ∧ (strictlyAhead c.down (p.counter c.down) t.lead = true → (if c.down = .B then 32 else 64) ≤ (p.queue c.down).length →
          p.ztr.fault = none →
          (p.queue c.up = [] → Completes c.command s (f p))
          ∧ ∀ e : Entry, p.queue c.up = [e] → inWindow c.up (p.counter c.up) e.expect e.half = true →
            let q := f (cancel (.expiry c.up) (entryGone c.up e (p.setQueue c.up [])))
            (e.tag = none → Completes c.command s q)
            ∧ (∀ x : Strip, e.tag = some x.tag → HoldsStrip x q → x.state ≠ .planned →
              Completes c.command s (retireSlot (slotOf x.tag) (.strip .lost) (cancel (.deadline x.tag) (leavePlanner x.tag q))))
            ∧ (∀ y : Piece, e.tag = some y.tag → HoldsPiece y q → y.state ≠ .assigned → y.reserved = none →
              Completes c.command s (retireSlot (slotOf y.tag) (.piece .lost) q))) := by
      intro p f edge tail
      refine ⟨fun behind => k.strayed r settled valid few edge tail behind, fun ahead full fault => ?_⟩
      obtain ⟨alone, lost⟩ := k.overflowed r settled valid edge tail ahead full fault
      refine ⟨alone, fun e queue inside => ?_⟩
      intro q
      have left : gone c.up e (f p) = q := gone_fault c.up e _ p
      have queue' : (f p).queue c.up = [e] := by rw [← queue]; cases c.up <;> rfl
      have rst : (f p).rst = q.rst := (gone_rst c.up e p).symm
      have at_once : q.ztr.atOnce = [] := by
        rw [← left]
        exact gone_atOnce e ((k.settled s.part).trans settled.1)
      refine ⟨fun tag => lost e queue inside q (fun m after => ?_) at_once, fun x tag h state => lost e queue inside _ (fun m after => ?_) ?_,
        fun y tag h state unreserved => lost e queue inside _ (fun m after => ?_) ?_⟩
      · rw [← left]
        exact (loseHead_behind queue' after).1 tag
      · rw [← left]
        exact (loseHead_behind queue' after).2.1 x tag (h.congr rst) state
      · exact (retireSlot_atOnce _ _ _).trans (cancel_atOnce _ at_once)
      · rw [← left]
        exact (loseHead_behind queue' after).2.2 y tag (h.congr rst) state unreserved
      · exact (retireSlot_atOnce _ _ _).trans at_once
    simp only [List.forall_mem_cons, List.not_mem_nil, false_implies, implies_true, and_true]
    exact ⟨general captures_AB, general captures_CD, general captures_DE⟩

end Sys2Proof.Machine

/-! PROOFS. Orders admitted, amended, cancelled and removed (8.2, 8.6, 8.7, 9.3). -/

namespace Sys2Proof.Machine

open Sys2Proof

/-! What follows a reply leaves orders and bays alone. -/

theorem After.order {p q : Part} (h : After p q) (o : OrderNo) : q.order o = p.order o := by rw [Part.order, h.1.2.2.2.2.1]; rfl

theorem After.bay {p q : Part} (h : After p q) (b : BayNo) : q.bay b = p.bay b := by rw [Part.bay, h.1.2.2.2.2.2.1]; rfl

theorem raiseOrdsta_after (o : OrderNo) (before : Option OrderState) (p : Part) : After p (raiseOrdsta o before p) := by
  unfold raiseOrdsta
  split
  · exact .refl p
  · split
    · exact .refl p
    · exact raise_after _ p

theorem slotStateItem_eq {o : OrderNo} {r : Order} {p : Part} (h : p.order o = some r) : slotStateItem o p = .u8 (r.state.ctorIdx + 1) := by
  rw [slotStateItem, slotState, h]
  rfl

/-! Bundle opening (R178). -/

/-- One bay of an opening attempt. -/
def openIn (q : Part) (b : BayNo) : Part :=
  if (q.bay b).state = .idle && !(q.bay b).held then
    match openChoice q with
    | none => q
    | some o => openBundle b o q
  else q

theorem tryOpening_eq (p : Part) : tryOpening p = (List.finRange 8).foldl openIn p := by
  unfold tryOpening openIn
  rfl

theorem openIn_taken {b : BayNo} {p : Part} (h : (p.bay b).state = .idle → (p.bay b).held = true) : openIn p b = p := by
  rw [openIn, if_neg]
  intro free
  simp only [Bool.and_eq_true, decide_eq_true_eq, Bool.not_eq_true'] at free
  rw [h free.1] at free
  exact nomatch free.2

theorem foldl_openIn_taken (bs : List BayNo) {p : Part} (h : ∀ b ∈ bs, (p.bay b).state = .idle → (p.bay b).held = true) :
    bs.foldl openIn p = p := by
  induction bs with
  | nil => rfl
  | cons b bs ih => rw [List.foldl_cons, openIn_taken (h b List.mem_cons_self), ih fun c m => h c (List.mem_cons_of_mem b m)]

theorem tryOpening_noFree {p : Part} (h : noFreeBay p) : tryOpening p = p := by
  rw [tryOpening_eq]
  exact foldl_openIn_taken _ fun b _ => h b

theorem openBundle_some {b : BayNo} {o : OrderNo} {r : Order} {p : Part} (h : p.order o = some r) : openBundle b o p =
    (p.setOrder o (some { r with opened := r.opened + 1 })).setBay b { p.bay b with
      state := .opened
      bundle := some ⟨o, r.number, r.opened + 1, 0, 0, 0, 0, 0, [], false, false, none⟩ } := by
  rw [openBundle, h]
  rfl

/-- With one bay IDLE and unheld, the order preferred opens its bundle there. -/
theorem tryOpening_one {b : BayNo} {o : OrderNo} {r : Order} {p : Part} (idle : (p.bay b).state = .idle) (unheld : (p.bay b).held = false)
    (taken : ∀ c : BayNo, c ≠ b → (p.bay c).state = .idle → (p.bay c).held = true) (choice : openChoice p = some o)
    (order : p.order o = some r) : tryOpening p = (p.setOrder o (some { r with opened := r.opened + 1 })).setBay b { p.bay b with
      state := .opened
      bundle := some ⟨o, r.number, r.opened + 1, 0, 0, 0, 0, 0, [], false, false, none⟩ } := by
  obtain ⟨before, behind, split⟩ := List.append_of_mem (List.mem_finRange b)
  have once := List.nodup_finRange 8
  rw [split, List.nodup_append] at once
  obtain ⟨-, once', apart⟩ := once
  have opened : openIn p b = openBundle b o p := by
    rw [openIn, idle, unheld, choice]
    rfl
  rw [tryOpening_eq, split, List.foldl_append, foldl_openIn_taken before fun c m => taken c (apart c m b List.mem_cons_self),
    List.foldl_cons, opened, openBundle_some order, foldl_openIn_taken]
  intro c m
  have other : c ≠ b := fun e => (List.nodup_cons.1 once').1 (e ▸ m)
  rw [Part.bay_setBay_other _ _ _ _ other.symm]
  exact taken c other

/-! ORDADM (R154, R155). -/

theorem emptySlot_holding (p : Part) : emptySlot (holding p) = emptySlot p := rfl

theorem findOrder_holding (n : Nat) (p : Part) : findOrder n (holding p) = findOrder n p := rfl

/-- The part with a new order in its slot, before bundle opening. -/
def placed (o : OrderNo) (f : OrderForm) (p : Part) : Part :=
  ({ p with ort.seq := p.ort.seq + 1 } : Part).setOrder o (some (newOrder f (p.ort.seq + 1)))

theorem nextSeq_of_lt {n : Nat} (h : n < 4294967295) : nextSeq n = n + 1 := if_pos (by simpa [Config.counterMax] using h)

theorem serveOrdadm_admits {o : OrderNo} {f : OrderForm} {p : Part} (inRange : OrderForm.inRange f = true)
    (new : findOrder f.number p = none) (slot : emptySlot p = some o) (few : p.ort.seq < 4294967295) :
    serveOrdadm f (holding p) = (⟨.done, admitItems o (raiseOrdsta o none (tryOpening (placed o f (holding p))))⟩,
      raiseOrdsta o none (tryOpening (placed o f (holding p)))) := by
  rw [serveOrdadm, inRange, if_neg (by decide), findOrder_holding, new]
  dsimp only
  rw [emptySlot_holding, slot]
  dsimp only
  rw [admitOrder, show (holding p).ort.seq = p.ort.seq from rfl, nextSeq_of_lt few]
  rfl

theorem admitItems_eq {o : OrderNo} {x : Order} {p : Part} (h : p.order o = some x) :
    admitItems o p = [.u8 o.val, .u32 x.seq, .u16 x.opened] := by rw [admitItems, h]

theorem newOrder_eq {f : OrderForm} {g : Grade} (grade : orderGrade f.grade = some g) (n : Nat) :
    newOrder f n = ⟨.active, f.number, f.species, g, f.classes, f.target, f.tolerance, f.shortLength, f.shortCap,
      f.ordered, 0, 0, f.priority, n, 0, 0, 0, 0⟩ := by
  rw [newOrder, grade]
  rfl

theorem ordered_pos {f : OrderForm} (h : OrderForm.inRange f = true) : 0 < f.ordered := by
  simp only [OrderForm.inRange, within, Bool.and_eq_true, decide_eq_true_eq] at h
  omega

/-- The only order, just admitted, is the one preferred for an opening. -/
theorem openChoice_placed {o : OrderNo} {f : OrderForm} {p : Part} (alone : ∀ q : OrderNo, p.order q = none) (inRange : OrderForm.inRange f = true) :
    openChoice (placed o f p) = some o := by
  have orders (q : OrderNo) : (placed o f p).order q = if o = q then some (newOrder f (p.ort.seq + 1)) else none :=
    (order_setOrder o _ _ q).trans (by rw [show Part.order { p with ort.seq := p.ort.seq + 1 } q = p.order q from rfl, alone])
  obtain ⟨some_spec, none_spec⟩ := openingPrefersPriorityThenSequence.1 (placed o f p)
  cases choice : openChoice (placed o f p) with
  | none =>
    exact absurd ⟨rfl, ordered_pos inRange⟩ (none_spec choice o (newOrder f (p.ort.seq + 1)) (by rw [orders, if_pos rfl]))
  | some q =>
    obtain ⟨r, held, -⟩ := some_spec q choice
    rw [orders] at held
    by_cases e : o = q
    · rw [e]
    · rw [if_neg e] at held
      exact nomatch held

/-- Settles O45. -/
theorem ordadmAdmitsOrder : Obligations.OrdadmAdmitsOrder := by
  intro number f g s running settled h p n order answer inRange grade few
  have new_order (m : Nat) : { newOrder f n with opened := m } = order m := by rw [newOrder_eq grade]
  refine ⟨fun o new slot => ?_, fun o r found held => ?_, fun new full => ?_⟩
  · have body := serveOrdadm_admits inRange new slot few
    have placed_order : (placed o f (holding p)).order o = some (order 0) := by
      rw [← new_order 0]
      exact Part.order_setOrder_same _ _ _
    have after_placed : After ({ p with ort.seq := n }.setOrder o (some (order 0))) (placed o f (holding p)) := by
      rw [← new_order 0]
      exact holding_after _
    refine ⟨fun noFree => ?_, fun b idle unheld taken alone => ?_⟩
    · rw [tryOpening_noFree (p := placed o f (holding p)) noFree] at body
      have left := raiseOrdsta_after o none (placed o f (holding p))
      refine request_replies_after (body := serveOrdadm f) rfl running settled h ?_ ?_
      · rw [body, admitItems_eq ((left.order o).trans placed_order)]
      · rw [body]
        exact after_placed.trans left
    · have opened := tryOpening_one (p := placed o f (holding p)) idle unheld taken (openChoice_placed alone inRange) placed_order
      rw [opened] at body
      generalize hq : Part.setBay _ _ _ = q at body
      have left := raiseOrdsta_after o none q
      have order_q : q.order o = some (order 1) := by
        rw [← hq]
        exact Part.order_setOrder_same _ _ _
      refine request_replies_after (body := serveOrdadm f) rfl running settled h ?_ ?_
      · rw [body, admitItems_eq ((left.order o).trans order_q)]
      · rw [body]
        refine After.trans ?_ left
        rw [← hq, placed, setOrder_setOrder]
        exact holding_after _
  · refine request_replies_still (body := serveOrdadm f) rfl running settled h ?_
    rw [serveOrdadm, inRange, if_neg (by decide), findOrder_holding, found]
    dsimp only
    rw [slotStateItem_eq (p := holding p) held]
  · refine request_replies_still (body := serveOrdadm f) rfl running settled h ?_
    rw [serveOrdadm, inRange, if_neg (by decide), findOrder_holding, new]
    dsimp only
    rw [emptySlot_holding, full]

end Sys2Proof.Machine

/-! PROOFS. Orders amended, cancelled and removed, and the frames that a request's notices make (8.6, 8.7, 11.2). -/

namespace Sys2Proof.Machine

open Sys2Proof

/-! States of orders with no piece reserved (R160, R167). -/

theorem bulkRelease_none {o : OrderNo} {p : Part} (h : slotsWhere (isReservedTo o) p = []) : bulkRelease o p = (false, p) := by
  rw [bulkRelease, h]
  rfl

theorem setOrderState_some {o : OrderNo} {r : Order} {p : Part} (h : p.order o = some r) (x : OrderState) :
    setOrderState o x p = p.setOrder o (some { r with state := x }) := changeOrder_some h _

theorem completeIfDone_done {o : OrderNo} {r : Order} {p : Part} (h : p.order o = some r) (active : r.state = .active)
    (done : r.retired = r.ordered) (unreserved : slotsWhere (isReservedTo o) p = []) :
    completeIfDone o p = (false, p.setOrder o (some { r with state := .complete })) := by
  rw [completeIfDone, h]
  dsimp only
  rw [if_pos (by simp [active, done]), setOrderState_some h, bulkRelease_none (by exact unreserved)]

theorem completeIfDone_idle {o : OrderNo} {r : Order} {p : Part} (h : p.order o = some r)
    (unfinished : ¬ (r.state = .active ∧ r.retired = r.ordered)) : completeIfDone o p = (false, p) := by
  rw [completeIfDone, h]
  dsimp only
  rw [if_neg (by simpa using unfinished)]

/-! ORDAMD (R165). -/

theorem amendItems_eq {o : OrderNo} {r : Order} {p : Part} (h : p.order o = some r) :
    amendItems o p = [.u8 (r.state.ctorIdx + 1), .u32 (r.ordered * r.target), .u16 r.opened] := by
  rw [amendItems, h, slotStateItem_eq h]
  rfl

theorem openIfActive_noFree {o : OrderNo} {p : Part} (h : noFreeBay p) : openIfActive o p = p := by
  rw [openIfActive]
  split
  · exact tryOpening_noFree h
  · rfl

/-- ORDAMD where the state test leaves the order as named, and no bay is free. -/
theorem serveOrdamd_amended {order n : Nat} {o : OrderNo} {r r' : Order} {p : Part} (low : 1 ≤ n) (high : n ≤ 9999)
    (found : findOrder order p = some o) (held : p.order o = some r) (noFree : noFreeBay p)
    (going : ¬ (r.state = .cancelling ∨ r.state = .cancelled)) (opened : r.opened ≤ n)
    (amended : amend o r n (holding p) = (false, (holding p).setOrder o (some r'))) :
    (serveOrdamd order n (holding p)).1 = ⟨.done, [.u8 (r'.state.ctorIdx + 1), .u32 (r'.ordered * r'.target), .u16 r'.opened]⟩
      ∧ After (p.setOrder o (some r')) (serveOrdamd order n (holding p)).2 := by
  have inRange : within 1 9999 n = true := by simp [within, low, high]
  have left := raiseOrdsta_after o (some r.state) ((holding p).setOrder o (some r'))
  have body : serveOrdamd order n (holding p) = (⟨.done, amendItems o (raiseOrdsta o (some r.state) ((holding p).setOrder o (some r')))⟩,
      raiseOrdsta o (some r.state) ((holding p).setOrder o (some r'))) := by
    rw [serveOrdamd, inRange, if_neg (by decide), findOrder_holding, found]
    dsimp only
    rw [show (holding p).order o = some r from held]
    dsimp only
    rw [if_neg going, if_neg (by omega), amended]
    dsimp only
    rw [openIfActive_noFree (by exact noFree)]
    rfl
  have order : ((holding p).setOrder o (some r')).order o = some r' := Part.order_setOrder_same _ _ _
  rw [body, amendItems_eq ((left.order o).trans order)]
  exact ⟨rfl, (holding_after (p.setOrder o (some r'))).trans left⟩

theorem amend_active {o : OrderNo} {r : Order} {n : Nat} {p : Part} (h : p.order o = some r) (active : r.state = .active) :
    amend o r n p = completeIfDone o (p.setOrder o (some { r with ordered := n })) := by
  cases r
  dsimp only at active
  subst active
  rw [amend, changeOrder_some h]

theorem amend_complete {o : OrderNo} {r : Order} {n : Nat} {p : Part} (h : p.order o = some r) (complete : r.state = .complete)
    (more : r.retired < n) : amend o r n p = (false, p.setOrder o (some { r with ordered := n, state := .active })) := by
  rw [amend, complete, changeOrder_some h]
  dsimp only
  rw [if_pos more, setOrderState_some (Part.order_setOrder_same _ _ _), setOrder_setOrder]

/-- Settles O46. -/
theorem ordamdSetsBundlesOrdered : Obligations.OrdamdSetsBundlesOrdered := by
  intro number order n o r s running settled h p answer done low high found held noFree
  have inRange : within 1 9999 n = true := by simp [within, low, high]
  have answered {k : Nat} {r' : Order} (going : ¬ (r.state = .cancelling ∨ r.state = .cancelled)) (opened : r.opened ≤ n)
      (amended : amend o r n (holding p) = (false, (holding p).setOrder o (some r')))
      (reply : (⟨.done, [.u8 (r'.state.ctorIdx + 1), .u32 (r'.ordered * r'.target), .u16 r'.opened]⟩ : Reply) = done k) :
      answer (done k) (p.setOrder o (some r')) := by
    obtain ⟨said, left⟩ := serveOrdamd_amended low high found held noFree going opened amended
    exact request_replies_after (body := serveOrdamd order n) rfl running settled h (said.trans reply) left
  have order_set : ((holding p).setOrder o (some { r with ordered := n })).order o = some { r with ordered := n } :=
    Part.order_setOrder_same _ _ _
  refine ⟨fun active opened open_still => ?_, fun active opened finished unreserved => ?_, fun complete opened more => ?_,
    fun going short => ?_, fun ended => ?_⟩
  · refine answered (by rw [active]; decide) opened (r' := { r with ordered := n }) ?_ (by rw [active]; rfl)
    rw [amend_active (p := holding p) held active, completeIfDone_idle order_set (fun e => open_still e.2)]
  · refine answered (by rw [active]; decide) opened (r' := { r with ordered := n, state := .complete }) ?_ rfl
    rw [amend_active (p := holding p) held active, completeIfDone_done order_set active finished unreserved, setOrder_setOrder]
  · exact answered (by rw [complete]; decide) opened (amend_complete (p := holding p) held complete more) rfl
  · refine request_replies_still (body := serveOrdamd order n) rfl running settled h ?_
    rw [serveOrdamd, inRange, if_neg (by decide), findOrder_holding, found]
    dsimp only
    rw [show (holding p).order o = some r from held]
    dsimp only
    rw [if_neg (by rcases going with e | e <;> rw [e] <;> decide), if_pos short]
  · refine request_replies_still (body := serveOrdamd order n) rfl running settled h ?_
    rw [serveOrdamd, inRange, if_neg (by decide), findOrder_holding, found]
    dsimp only
    rw [show (holding p).order o = some r from held]
    dsimp only
    rw [if_pos ended]

/-! ORDCAN (R166). -/

theorem settleCancelled_empty {o : OrderNo} {r : Order} {p : Part} (h : p.order o = some r) (cancelling : r.state = .cancelling)
    (empty : baysOf o p = []) : settleCancelled o p = p.setOrder o (some { r with state := .cancelled }) := by
  rw [settleCancelled, h]
  dsimp only
  rw [if_pos (by simp [cancelling, empty])]

theorem settleCancelled_idle {o : OrderNo} {r : Order} {p : Part} (h : p.order o = some r)
    (going : r.state ≠ .cancelling ∨ baysOf o p ≠ []) : settleCancelled o p = p := by
  rw [settleCancelled, h]
  dsimp only
  rw [if_neg]
  simp only [Bool.and_eq_true, decide_eq_true_eq, List.isEmpty_iff]
  exact fun e => going.elim (fun k => k e.1) fun k => k e.2

/-- The force close of a bundle with area in transit. -/
theorem forceClose_transit {b : BayNo} {u : Bundle} {p : Part} (bundle : (p.bay b).bundle = some u) (transit : 0 < u.transit) :
    forceClose b p = p.setBay b { p.bay b with state := .closing, bundle := some { u with short := true } } := by
  rw [forceClose, bundle]
  dsimp only
  rw [if_neg (by omega)]

theorem cancelOrder_empty {o : OrderNo} {r : Order} {p : Part} (h : p.order o = some r) (unreserved : slotsWhere (isReservedTo o) p = [])
    (empty : baysOf o p = []) : cancelOrder o p = (false, p.setOrder o (some { r with state := .cancelled })) := by
  have bays : baysOf o (p.setOrder o (some { r with state := .cancelling })) = [] := empty
  rw [cancelOrder, setOrderState_some h, bulkRelease_none (by exact unreserved)]
  dsimp only
  rw [bays, List.foldl_nil, settleCancelled_empty (Part.order_setOrder_same _ _ _) rfl bays, setOrder_setOrder]

theorem cancelOrder_transit {o : OrderNo} {r : Order} {b : BayNo} {u : Bundle} {p : Part} (h : p.order o = some r)
    (unreserved : slotsWhere (isReservedTo o) p = []) (one : baysOf o p = [b]) (opened : (p.bay b).state = .opened)
    (bundle : (p.bay b).bundle = some u) (transit : 0 < u.transit) :
    cancelOrder o p = (false, (p.setOrder o (some { r with state := .cancelling })).setBay b { p.bay b with
      state := .closing
      bundle := some { u with short := true } }) := by
  have bays : baysOf o (p.setOrder o (some { r with state := .cancelling })) = [b] := one
  have full : emptyOpen (p.bay b) = false := by
    rw [emptyOpen, bundle]
    simp
    omega
  have closed : closeForCancel (p.setOrder o (some { r with state := .cancelling })) b =
      (p.setOrder o (some { r with state := .cancelling })).setBay b { p.bay b with
        state := .closing, bundle := some { u with short := true } } := by
    rw [closeForCancel, if_pos (by exact opened), if_neg (by exact (Bool.eq_false_iff.1 full)),
      forceClose_transit (by exact bundle) transit]
    rfl
  have owner : u.slot = o := by
    have member : b ∈ baysOf o p := by rw [one]; exact List.mem_singleton_self b
    rw [mem_baysOf_iff, Bay.owner, bundle] at member
    simpa using member
  have order : ((p.setOrder o (some { r with state := .cancelling })).setBay b { p.bay b with
      state := .closing, bundle := some { u with short := true } }).order o = some { r with state := .cancelling } :=
    Part.order_setOrder_same _ _ _
  have still : b ∈ baysOf o ((p.setOrder o (some { r with state := .cancelling })).setBay b { p.bay b with
      state := .closing, bundle := some { u with short := true } }) := by
    rw [mem_baysOf_iff, Part.bay_setBay_same, Bay.owner, ← owner]
    rfl
  rw [cancelOrder, setOrderState_some h, bulkRelease_none (by exact unreserved)]
  dsimp only
  rw [bays, List.foldl_cons, List.foldl_nil, closed, settleCancelled_idle order (.inr (List.ne_nil_of_mem still))]

/-- ORDCAN of an ACTIVE order, from the steps of its cancelling. -/
theorem serveOrdcan_active {order : Nat} {o : OrderNo} {r r' : Order} {p q : Part} (found : findOrder order p = some o)
    (held : p.order o = some r) (active : r.state = .active) (cancelled : cancelOrder o (holding p) = (false, holding q))
    (ended : q.order o = some r') : (serveOrdcan order (holding p)).1 = ⟨.done, [.u8 (r'.state.ctorIdx + 1)]⟩
      ∧ After q (serveOrdcan order (holding p)).2 := by
  have left := raiseOrdsta_after o (some .active) (holding q)
  have body : serveOrdcan order (holding p) = (⟨.done, [slotStateItem o (raiseOrdsta o (some .active) (holding q))]⟩,
      raiseOrdsta o (some .active) (holding q)) := by
    rw [serveOrdcan, findOrder_holding, found]
    dsimp only
    rw [if_neg (by rw [slotState, show (holding p).order o = some r from held]; simp [active]), cancelled]
    rfl
  rw [body, slotStateItem_eq ((left.order o).trans ended)]
  exact ⟨rfl, (holding_after q).trans left⟩

/-! The notices of a request (R206, R213). -/

/-- What a request taken at once leaves on every link: its reply, its notices in order, and what follows every command. -/
theorem request_notices {c : Instr} {l : LinkNo} {code number : Nat} {body : Part → Reply × Part} {s : State} {r : Reply}
    {q : Part} {d : List Notice} (hc : exec c s = next (run (takeRequest l code number c body)) s) (running : Running s.part)
    (h : Takes l code s.part) (hb : body (holding s.part) = (r, q)) (none_at_once : q.ztr.atOnce = []) (hd : q.lif.deferred = some d) :
    ∃ t : State, exec c s = .next t ∧ After (composeAll (noticeOrder (d ++ owedLinsta q)) (replied l code number r q)) t.part := by
  refine ⟨⟨run (takeRequest l code number c body) s.part, s.pending⟩, hc, ?_⟩
  have taken := takeRequest_taken l code number c body s.part h
  rw [show ({ s.part with lif.deferred := some [] } : Part) = holding s.part from rfl, hb] at taken
  dsimp only at taken ⊢
  rw [run_of_running _ running, taken, finish, settleAll_idle]
  swap
  · rw [(composeReply_after l code number r _).atOnce, (reevaluate_after false q).atOnce]
    exact none_at_once
  rw [reevaluate_deferring hd]
  have flushed : flushDeferred (composeReply l code number r { recompute q with lif.deferred := some (d ++ owedLinsta q) }) =
      composeAll (noticeOrder (d ++ owedLinsta q)) (replied l code number r q) := rfl
  rw [flushed]
  exact (answerAll_after _).trans (reevaluate_after _ _)

theorem After.transmit {p q : Part} (h : After p q) (l : LinkNo) : (p.link l).transmit <+: (q.link l).transmit := (h.2.1 l).2.1

/-- A single ORDSTA stands before the LINSTA that a re-evaluation owes. -/
theorem noticeOrder_ordsta {n : Notice} (code : n.code = codeORDSTA) (p : Part) :
    noticeOrder ([n] ++ owedLinsta p) = n :: owedLinsta p := by
  rw [owedLinsta]
  split <;> simp [noticeOrder, code, codeORDSTA, codeBDLRDY, linsta, codeLINSTA, List.range_succ]

/-- Settles O47. -/
theorem ordcanAndOrdremEndOrders : Obligations.OrdcanAndOrdremEndOrders := by
  refine ⟨fun number order s running settled h => ?_, fun number order s running settled h => ?_⟩
  · intro p answer
    refine ⟨fun o r found held => ⟨fun active unreserved empty => ?_, fun b u active unreserved one opened bundle transit => ?_,
      fun ended => ?_⟩, fun unknown => ?_⟩
    · obtain ⟨said, left⟩ := serveOrdcan_active (q := p.setOrder o (some { r with state := .cancelled })) found held active
        (cancelOrder_empty (p := holding p) held unreserved empty) (Part.order_setOrder_same _ _ _)
      exact request_replies_after (body := serveOrdcan order) rfl running settled h said left
    · obtain ⟨said, left⟩ := serveOrdcan_active (q := (p.setOrder o (some { r with state := .cancelling })).setBay b { p.bay b with
          state := .closing, bundle := some { u with short := true } }) found held active
        (cancelOrder_transit (p := holding p) held unreserved one opened bundle transit) (Part.order_setOrder_same _ _ _)
      exact request_replies_after (body := serveOrdcan order) rfl running settled h said left
    · refine request_replies_still (body := serveOrdcan order) rfl running settled h ?_
      rw [serveOrdcan, findOrder_holding, found]
      dsimp only
      rw [if_pos]
      rw [slotState, show (holding p).order o = some r from held]
      simpa using ended
    · refine request_replies_still (body := serveOrdcan order) rfl running settled h ?_
      rw [serveOrdcan, findOrder_holding, unknown]
  · intro p answer
    refine ⟨fun o r found held => ?_, fun unknown => ?_⟩
    · have finished (ended : r.state = .complete ∨ r.state = .cancelled) : serveOrdrem order (holding p) =
          (⟨.done, [.u16 r.retired, .u32 r.landedArea, .u32 r.retiredArea]⟩,
            { (p.setOrder o none) with lif.deferred := some [ordsta o (some r.state) none r] }) := by
        rw [serveOrdrem, findOrder_holding, found]
        dsimp only
        rw [show (holding p).order o = some r from held]
        dsimp only
        rw [if_neg (by rcases ended with e | e <;> rw [e] <;> decide), removeOrder, raise_later (ns := []) rfl]
        rfl
      refine ⟨fun ended => ?_, fun ended up room => ?_, fun going => ?_⟩
      · refine request_replies_after (body := serveOrdrem order) rfl running settled h ?_ ?_
        · rw [finished ended]
        · rw [finished ended]
          exact after_deferred _ _
      · obtain ⟨t, ran, left⟩ := request_notices (c := .ordrem 0 number order) (body := serveOrdrem order) rfl running h (finished ended) settled.1 rfl
        refine ⟨t, ran, ?_⟩
        rw [noticeOrder_ordsta rfl, composeAll, List.foldl_cons] at left
        have sent := ((composeAll_after _ _).trans left).transmit 0
        have reply : (replied 0 0x3B number ⟨.done, [.u16 r.retired, .u32 r.landedArea, .u32 r.retiredArea]⟩
            { (p.setOrder o none) with lif.deferred := some [ordsta o (some r.state) none r] }).link 0 =
            { p.link 0 with transmit := (p.link 0).transmit
              ++ [⟨.reply, 0x3B, number, [.u8 0, .u16 r.retired, .u32 r.landedArea, .u32 r.retiredArea]⟩] } := replied_link_same _ _ _ _ _
        generalize replied 0 0x3B number _ _ = q at reply sent
        rw [ordsta, compose_supervisor (by rw [reply]; exact up) (by rw [reply]; simp; omega), Part.link_setLink_same, reply] at sent
        rw [← List.append_cons] at sent
        exact sent
      · refine request_replies_still (body := serveOrdrem order) rfl running settled h ?_
        rw [serveOrdrem, findOrder_holding, found]
        dsimp only
        rw [show (holding p).order o = some r from held]
        dsimp only
        rw [if_pos going]
    · refine request_replies_still (body := serveOrdrem order) rfl running settled h ?_
      rw [serveOrdrem, findOrder_holding, unknown]

end Sys2Proof.Machine

/-! PROOFS. Bundles closed by BAYCLS and retired by BDLRET (9.7, 10.1, 10.3, 10.5). -/

namespace Sys2Proof.Machine

open Sys2Proof

/-! A bundle that fills (R185, R193, R196). -/

/-- The part with a bay FULL, its bundle labelled. -/
def filled (b : BayNo) (x : Bundle) (r : Order) (p : Part) : Part :=
  let y := { x with short := x.short || decide (x.landed < r.target) }
  p.setBay b { p.bay b with state := .full, bundle := some { y with label := some (makeLabel b y r) } }

/-- BDLRDY to one of its two receivers. -/
def bdlrdy (d : Dest) (b : BayNo) (x : Bundle) (r : Order) : Notice :=
  ⟨d, codeBDLRDY, labelItems (makeLabel b { x with short := x.short || decide (x.landed < r.target) } r)⟩

theorem enterFull_eq {b : BayNo} {x : Bundle} {r : Order} {p : Part} (bundle : (p.bay b).bundle = some x) (order : p.order x.slot = some r) :
    enterFull b p = countEvent .full (raise (bdlrdy .supervisor b x r) (raise (bdlrdy (.role .labeller) b x r) (filled b x r p))) := by
  rw [enterFull, bundle]
  dsimp only
  rw [order]
  rfl

/-- The first countable event of coalescing. -/
def countedFull (p : Part) : Part := { p with lif.coalesce := some ⟨0, 0, 1, p.lif.delay, 8 * p.lif.delay⟩ }

theorem countEvent_full {p : Part} (idle : p.lif.coalesce = none) (delay : 0 < p.lif.delay) : countEvent .full p = countedFull p :=
  countEvent_idle idle (by omega)

theorem After.coalesce {p q : Part} (h : After p q) : q.lif.coalesce = p.lif.coalesce ∧ q.lif.delay = p.lif.delay := by
  obtain ⟨x, d, a, b, c, e⟩ := h.shape
  rw [e]
  exact ⟨rfl, rfl⟩

theorem enterFull_after {b : BayNo} {x : Bundle} {r : Order} {p : Part} (bundle : (p.bay b).bundle = some x) (order : p.order x.slot = some r)
    (idle : p.lif.coalesce = none) (delay : 0 < p.lif.delay) : After (countedFull (filled b x r p)) (enterFull b p) := by
  have raised : After (filled b x r p) (raise (bdlrdy .supervisor b x r) (raise (bdlrdy (.role .labeller) b x r) (filled b x r p))) :=
    (raise_after _ _).trans (raise_after _ _)
  obtain ⟨coalesce, delay'⟩ := raised.coalesce
  rw [enterFull_eq bundle order, countEvent_full (coalesce.trans idle) (by rw [delay']; exact delay)]
  exact raised.map (f := countedFull) (fun _ _ _ _ _ _ => rfl) fun _ => rfl

/-- Held back behind a reply, the two notices of a bundle that fills. -/
theorem enterFull_held {b : BayNo} {x : Bundle} {r : Order} {p : Part} (bundle : (p.bay b).bundle = some x) (order : p.order x.slot = some r)
    (idle : p.lif.coalesce = none) (delay : 0 < p.lif.delay) (held : p.lif.deferred = some []) :
    enterFull b p = { countedFull (filled b x r p) with
      lif.deferred := some [bdlrdy (.role .labeller) b x r, bdlrdy .supervisor b x r] } := by
  rw [enterFull_eq bundle order, raise_later (p := filled b x r p) held, raise_later rfl]
  exact countEvent_full idle delay

/-! BAYCLS (R187 to R189). -/

theorem reevalClosing_fill {b : BayNo} {x : Bundle} {r : Order} {p : Part} (closing : (p.bay b).state = .closing)
    (bundle : (p.bay b).bundle = some x) (order : p.order x.slot = some r) (transit : x.transit = 0)
    (ends : r.target ≤ x.landed ∨ x.short = true ∨ r.state ≠ .active) : reevalClosing b p = enterFull b p := by
  have outcome : closingOutcome x r = .fill := by
    rw [closingOutcome, if_neg (by omega)]
    by_cases full : r.target ≤ x.landed
    · rw [if_pos full]
    · rw [if_neg full, if_pos]
      rcases ends.resolve_left full with short | state
      · simp [short]
      · simp [state]
  rw [reevalClosing, if_pos closing, bundle]
  dsimp only
  rw [order]
  dsimp only
  rw [outcome]

/-- The part with a bay's bundle made CLOSING and SHORT. -/
def shut (b : BayNo) (u : Bundle) (p : Part) : Part :=
  p.setBay b { p.bay b with state := .closing, bundle := some { u with short := true } }

theorem forceClose_landed {b : BayNo} {u : Bundle} {r : Order} {p : Part} (bundle : (p.bay b).bundle = some u)
    (order : p.order u.slot = some r) (transit : u.transit = 0) : forceClose b p = enterFull b (shut b u p) := by
  have bay : (shut b u p).bay b = { p.bay b with state := .closing, bundle := some { u with short := true } } :=
    Part.bay_setBay_same _ _ _
  rw [forceClose, bundle]
  dsimp only
  rw [if_pos transit]
  exact reevalClosing_fill (p := shut b u p) (by rw [bay]) (x := { u with short := true }) (by rw [bay]) order transit (.inr (.inl rfl))

/-- BAYCLS of an OPEN bundle with area. -/
theorem serveBaycls_forced {b : BayNo} {u : Bundle} {p : Part} (opened : (p.bay b).state = .opened) (bundle : (p.bay b).bundle = some u)
    (area : 0 < u.transit ∨ 0 < u.landed) : serveBaycls (b.val + 1) p =
      (⟨.done, closeReply ((forceClose b p).bay b) (((forceClose b p).bay b).bundle.getD u)⟩, forceClose b p) := by
  have full : ¬ emptyOpen (p.bay b) = true := by
    rw [emptyOpen, bundle]
    simp
    omega
  rw [serveBaycls, bayOf_succ]
  dsimp only
  rw [bundle]
  dsimp only
  rw [if_neg (not_not.2 opened), if_neg full]

theorem dismiss_eq {b : BayNo} {u : Bundle} {r : Order} {p : Part} (bundle : (p.bay b).bundle = some u) (order : p.order u.slot = some r) :
    dismiss b p = (p.setBay b { p.bay b with state := .idle, bundle := none }).setOrder u.slot (some { r with opened := r.opened - 1 }) := by
  rw [dismiss, bundle]
  dsimp only
  rw [changeOrder_some (by exact order)]

/-- BAYCLS of an OPEN bundle without area, in a held bay and of an ACTIVE order. -/
theorem serveBaycls_dismissed {b : BayNo} {u : Bundle} {r : Order} {p : Part} (opened : (p.bay b).state = .opened)
    (bundle : (p.bay b).bundle = some u) (order : p.order u.slot = some r) (transit : u.transit = 0) (landed : u.landed = 0)
    (held : (p.bay b).held = true) (active : r.state = .active) :
    let q := (p.setBay b { p.bay b with state := .idle, bundle := none }).setOrder u.slot (some { r with opened := r.opened - 1 })
    (serveBaycls (b.val + 1) p).1 = ⟨.done, dismissReply { p.bay b with state := .idle, bundle := none } u⟩
      ∧ After q (serveBaycls (b.val + 1) p).2 := by
  intro q
  have empty : emptyOpen (p.bay b) = true := by
    rw [emptyOpen, bundle]
    simp [opened, transit, landed]
  have bay : q.bay b = { p.bay b with state := .idle, bundle := none } := Part.bay_setBay_same _ _ _
  have dismissed : dismissBay b u p = raiseOrdsta u.slot (slotState u.slot p) q := by
    rw [dismissBay, dismiss_eq bundle order, settleCancelled_idle (p := q) (Part.order_setOrder_same _ _ _)
      (.inl (by rw [active]; exact nofun)), openUnlessHeld_held (by rw [bay]; exact held)]
  have left := raiseOrdsta_after u.slot (slotState u.slot p) q
  have body : serveBaycls (b.val + 1) p = (⟨.done, dismissReply ((dismissBay b u p).bay b) u⟩, dismissBay b u p) := by
    rw [serveBaycls, bayOf_succ]
    dsimp only
    rw [bundle]
    dsimp only
    rw [if_neg (not_not.2 opened), if_pos empty]
  rw [body, dismissed, left.bay, bay]
  exact ⟨rfl, left⟩

theorem serveBaycls_wrongState {b : BayNo} {p : Part} (h : (p.bay b).state ≠ .opened) : serveBaycls (b.val + 1) p = (⟨.wrongState, []⟩, p) := by
  rw [serveBaycls, bayOf_succ]
  dsimp only
  split
  · rfl
  · rw [if_pos h]

theorem enrolledLink_congr {p q : Part} (h : ∀ l : LinkNo, (q.link l).role = (p.link l).role ∧ (q.link l).state = (p.link l).state) (r : Role) :
    enrolledLink r q = enrolledLink r p := by simp only [enrolledLink, h]

/-- Two BDLRDY of one bay stand before the LINSTA that a re-evaluation owes. -/
theorem noticeOrder_bdlrdy {n m : Notice} {k : Nat} (small : k < 9) (code : n.code = codeBDLRDY) (code' : m.code = codeBDLRDY)
    (bay : noticeBay n = k) (bay' : noticeBay m = k) (p : Part) : noticeOrder ([n, m] ++ owedLinsta p) = n :: m :: owedLinsta p := by
  have ready : ([n, m] ++ owedLinsta p).filter (fun n => n.code == codeBDLRDY) = [n, m] := by
    rw [owedLinsta]
    split <;> simp [code, code', codeBDLRDY, linsta, codeLINSTA]
  have placed : (List.range 9).flatMap (fun b => [n, m].filter fun n => noticeBay n == b) = [n, m] := by
    simp only [List.filter_cons, bay, bay']
    interval_cases k <;> rfl
  have rest : ([n, m] ++ owedLinsta p).filter (fun n => n.code == codeORDSTA) = []
      ∧ ([n, m] ++ owedLinsta p).filter (fun n => n.code != codeBDLRDY && n.code != codeORDSTA) = owedLinsta p := by
    rw [owedLinsta]
    split <;> simp [code, code', codeBDLRDY, codeORDSTA, linsta, codeLINSTA]
  rw [noticeOrder, ready, placed, rest.1, rest.2]
  rfl

/-- Settles O51. -/
theorem bayclsForcesCloseAndReports : Obligations.BayclsForcesCloseAndReports := by
  refine ⟨fun number b s running settled h => ?_, fun number b u r l s running settled h => ?_⟩
  · intro p x flag answer
    refine ⟨fun u r opened bundle order => ⟨fun transit => ?_, fun transit landed idle delay => ?_, fun transit landed held active => ?_⟩,
      fun state => ?_⟩
    · have body := serveBaycls_forced (p := holding p) opened bundle (.inl transit)
      rw [forceClose_transit (p := holding p) bundle transit, Part.bay_setBay_same] at body
      exact request_replies_after (body := serveBaycls (b.val + 1)) rfl running settled h (by rw [body]; rfl)
        (by rw [body]; exact holding_after _)
    · have body := serveBaycls_forced (p := holding p) opened bundle (.inr landed)
      have bay : (shut b u (holding p)).bay b = { x with state := .closing, bundle := some { u with short := true } } :=
        Part.bay_setBay_same _ _ _
      have left := enterFull_after (p := shut b u (holding p)) (x := { u with short := true }) (by rw [bay]) order idle delay
      have bay_left : (enterFull b (shut b u (holding p))).bay b = { x with
          state := .full, bundle := some { u with short := true, label := some (makeLabel b { u with short := true } r) } } := by
        rw [left.bay, countedFull, filled, bay]
        exact Part.bay_setBay_same _ _ _
      rw [forceClose_landed (p := holding p) bundle order transit, bay_left] at body
      refine request_replies_after (body := serveBaycls (b.val + 1)) rfl running settled h ?_ ?_
      · rw [body, closeReply]
        simp only [Option.getD_some, transit]
        rfl
      · rw [body]
        refine After.trans ?_ left
        have twice : filled b { u with short := true } r (shut b u (holding p)) = (holding p).setBay b { x with
            state := .full, bundle := some { u with short := true, label := some (makeLabel b { u with short := true } r) } } := by
          rw [filled, bay]
          simp [shut, Part.setBay]
        rw [twice]
        exact holding_after _
    · obtain ⟨said, left⟩ := serveBaycls_dismissed (p := holding p) opened bundle order transit landed held active
      exact request_replies_after (body := serveBaycls (b.val + 1)) rfl running settled h said ((holding_after _).trans left)
    · exact request_replies_still (body := serveBaycls (b.val + 1)) rfl running settled h (serveBaycls_wrongState state)
  · intro p notice opened bundle order transit landed short idle delay up room enrolled apart room'
    have bay : (shut b u (holding p)).bay b = { p.bay b with state := .closing, bundle := some { u with short := true } } :=
      Part.bay_setBay_same _ _ _
    have body := serveBaycls_forced (p := holding p) opened bundle (.inr landed)
    rw [forceClose_landed (p := holding p) bundle order transit,
      enterFull_held (p := shut b u (holding p)) (x := { u with short := true }) (by rw [bay]) order idle delay rfl] at body
    obtain ⟨t, ran, left⟩ := request_notices (c := .baycls 0 number (b.val + 1)) (body := serveBaycls (b.val + 1)) rfl running h body
      settled.1 rfl
    refine ⟨t, ran, ?_⟩
    rw [noticeOrder_bdlrdy (k := b.val + 1) (by omega) rfl rfl rfl rfl, composeAll, List.foldl_cons, List.foldl_cons] at left
    have sent := (composeAll_after _ _).trans left
    generalize hr : (⟨.done, closeReply _ _⟩ : Reply) = reply at sent
    generalize hm : ({ countedFull _ with lif.deferred := _ } : Part) = m at sent
    have links (k : LinkNo) : m.link k = p.link k := by rw [← hm]; rfl
    have first : (replied 0 0x42 number reply m).link 0 = { p.link 0 with transmit := (p.link 0).transmit
        ++ [⟨.reply, 0x42, number, .u8 (statusCode reply.status) :: reply.fields⟩] } := by rw [replied_link_same, links]
    have others {k : LinkNo} (h : k ≠ 0) : (replied 0 0x42 number reply m).link k = p.link k := by
      rw [replied_link_other h.symm, links]
    have roles (k : LinkNo) : ((replied 0 0x42 number reply m).link k).role = (p.link k).role
        ∧ ((replied 0 0x42 number reply m).link k).state = (p.link k).state := by
      by_cases e : k = 0
      · subst e; rw [first]; exact ⟨rfl, rfl⟩
      · rw [others e]; exact ⟨rfl, rfl⟩
    generalize replied 0 0x42 number reply m = q at sent first others roles
    rw [show bdlrdy (.role .labeller) b { u with short := true } r = ⟨.role .labeller, 0x83, notice.fields⟩ from rfl,
      compose_station ((enrolledLink_congr roles .labeller).trans enrolled) (by rw [others apart]; exact room'),
      show bdlrdy .supervisor b { u with short := true } r = ⟨.supervisor, 0x83, notice.fields⟩ from rfl] at sent
    have link0 (x : LinkRec) : (q.setLink l x).link 0 = q.link 0 := Part.link_setLink_other _ _ _ _ apart
    rw [compose_supervisor (by rw [link0, first]; exact up) (by rw [link0, first]; simp; omega), link0, first] at sent
    have on0 := sent.transmit 0
    rw [Part.link_setLink_same] at on0
    refine ⟨on0.subset (by simp [notice]), ?_, .u8 (statusCode reply.status) :: reply.fields, ?_⟩
    · have onl := sent.transmit l
      rw [Part.link_setLink_other _ _ _ _ apart.symm, Part.link_setLink_same, others apart] at onl
      exact onl.subset (by simp [notice])
    · rw [← List.append_cons] at on0
      exact on0

end Sys2Proof.Machine

/-! PROOFS. Bundles retired by BDLRET, and bays held and released (9.2, 9.3, 9.6, 10.5). -/

namespace Sys2Proof.Machine

open Sys2Proof

/-! BDLRET (R199, R200). -/

/-- The state of an order after one more of its bundles is retired, none of them left in a bay (R167, R168). -/
def retiredState (r : Order) : OrderState :=
  match r.state with
  | .active => if r.retired + 1 = r.ordered then .complete else .active
  | .cancelling => .cancelled
  | y => y

/-- The order of a retired bundle. -/
def retiredOrder (u : Bundle) (r : Order) : Order :=
  { r with state := retiredState r, retired := r.retired + 1, retiredArea := r.retiredArea + u.landed }

/-- The order's books at the retirement of a bundle. -/
def booked (u : Bundle) (r : Order) : Order := { r with retired := r.retired + 1, retiredArea := r.retiredArea + u.landed }

theorem emptyBay_baysOf {b : BayNo} {o : OrderNo} {p : Part} (one : baysOf o p = [b]) : baysOf o (emptyBay b p) = [] := by
  rw [List.eq_nil_iff_forall_not_mem]
  intro c member
  rw [mem_baysOf_iff, emptyBay, bay_setBay] at member
  split at member
  · exact nomatch member
  · next other =>
    rw [← mem_baysOf_iff, one, List.mem_singleton] at member
    exact other member.symm

theorem retireBundle_eq {b : BayNo} {u : Bundle} {r : Order} {p : Part} (order : p.order u.slot = some r) (held : (p.bay b).held = true)
    (one : baysOf u.slot p = [b]) (unreserved : slotsWhere (isReservedTo u.slot) p = []) :
    retireBundle b u p = (false, (p.setBay b { p.bay b with state := .idle, bundle := none }).setOrder u.slot (some (retiredOrder u r))) := by
  have booked_order : (p.setOrder u.slot (some (booked u r))).order u.slot = some (booked u r) := Part.order_setOrder_same _ _ _
  have emptied (y : Option Order) : baysOf u.slot (emptyBay b (p.setOrder u.slot y)) = [] :=
    emptyBay_baysOf (p := p.setOrder u.slot y) one
  have order_emptied (y : Order) : (emptyBay b (p.setOrder u.slot (some y))).order u.slot = some y := Part.order_setOrder_same _ _ _
  have unopened (y : Option Order) : openUnlessHeld b ((emptyBay b p).setOrder u.slot y) = (emptyBay b p).setOrder u.slot y := by
    refine openUnlessHeld_held ?_
    rw [show ((emptyBay b p).setOrder u.slot y).bay b = (emptyBay b p).bay b from rfl, emptyBay, Part.bay_setBay_same]
    exact held
  rw [retireBundle, bookRetirement, changeOrder_some order]
  rw [show ({ r with retired := r.retired + 1, retiredArea := r.retiredArea + u.landed } : Order) = booked u r from rfl]
  have closing {x y : Order} (completed : completeIfDone u.slot (p.setOrder u.slot (some (booked u r))) =
        (false, p.setOrder u.slot (some x))) (settles : settleCancelled u.slot (emptyBay b (p.setOrder u.slot (some x))) =
        (emptyBay b p).setOrder u.slot (some y)) (ends : y = retiredOrder u r) :
      ((completeIfDone u.slot (p.setOrder u.slot (some (booked u r)))).1,
        openUnlessHeld b (settleCancelled u.slot (emptyBay b (completeIfDone u.slot (p.setOrder u.slot (some (booked u r)))).2))) =
      (false, (p.setBay b { p.bay b with state := .idle, bundle := none }).setOrder u.slot (some (retiredOrder u r))) := by
    rw [completed, settles, unopened, ends]
    rfl
  have stays {x : Order} (state : x.state ≠ .cancelling) : settleCancelled u.slot (emptyBay b (p.setOrder u.slot (some x))) =
      (emptyBay b p).setOrder u.slot (some x) := settleCancelled_idle (order_emptied x) (.inl state)
  have unfinished (h : ¬ (r.state = .active ∧ r.retired + 1 = r.ordered)) := completeIfDone_idle booked_order h
  cases state : r.state with
  | active =>
    by_cases last : r.retired + 1 = r.ordered
    · have done := completeIfDone_done booked_order state last unreserved
      rw [setOrder_setOrder] at done
      exact closing done (stays nofun) (by simp [retiredOrder, retiredState, booked, state, last])
    · refine closing (unfinished fun e => last e.2) (stays (by rw [booked, state]; exact nofun)) ?_
      simp [retiredOrder, retiredState, booked, state, last]
  | complete =>
    exact closing (unfinished fun e => nomatch state.symm.trans e.1) (stays (by rw [booked, state]; exact nofun))
      (by simp [retiredOrder, retiredState, booked, state])
  | cancelled =>
    exact closing (unfinished fun e => nomatch state.symm.trans e.1) (stays (by rw [booked, state]; exact nofun))
      (by simp [retiredOrder, retiredState, booked, state])
  | cancelling =>
    have settles := settleCancelled_empty (order_emptied (booked u r)) state (emptied _)
    rw [show (emptyBay b (p.setOrder u.slot (some (booked u r)))).setOrder u.slot (some { booked u r with state := .cancelled }) =
      (emptyBay b p).setOrder u.slot (some { booked u r with state := .cancelled }) from setOrder_setOrder _ _ _ (emptyBay b p)] at settles
    exact closing (unfinished fun e => nomatch state.symm.trans e.1) settles (by simp [retiredOrder, retiredState, booked, state])

/-- BDLRET of a FULL bay, but for the bundle it names. -/
theorem serveBdlret_full {order serial : Nat} {b : BayNo} {u : Bundle} {p : Part} (named : 1 ≤ order) (named' : order ≤ 99999)
    (inRange : 1 ≤ serial) (inRange' : serial ≤ 9999) (full : (p.bay b).state = .full) (bundle : (p.bay b).bundle = some u) :
    serveBdlret (b.val + 1) order serial p = retireFull b u order serial p := by
  have fits : (within 1 99999 order && within 1 9999 serial) = true := by simp [within, named, named', inRange, inRange']
  rw [serveBdlret, bayOf_succ]
  dsimp only
  rw [if_neg (by rw [fits]; decide), if_neg (not_not.2 full), bundle]

theorem retireFull_eq {b : BayNo} {u : Bundle} {r : Order} {p : Part} (order : p.order u.slot = some r) (held : (p.bay b).held = true)
    (one : baysOf u.slot p = [b]) (unreserved : slotsWhere (isReservedTo u.slot) p = []) :
    let q := (p.setBay b { p.bay b with state := .idle, bundle := none }).setOrder u.slot (some (retiredOrder u r))
    (retireFull b u u.order u.serial p).1 = ⟨.done, [.u32 u.order, .u16 u.serial, .u32 u.landed, .u16 (r.retired + 1),
        .u32 (r.retiredArea + u.landed), .u8 ((retiredState r).ctorIdx + 1), .u8 0, .u8 0, .u8 0]⟩
      ∧ After q (retireFull b u u.order u.serial p).2 := by
  intro q
  have left := raiseOrdsta_after u.slot (slotState u.slot p) q
  have body : retireFull b u u.order u.serial p = (⟨.done, retireReply b u (raiseOrdsta u.slot (slotState u.slot p) q)⟩,
      raiseOrdsta u.slot (slotState u.slot p) q) := by
    rw [retireFull, if_neg (by simp), retireBundle_eq order held one unreserved]
    rfl
  have order_q : (raiseOrdsta u.slot (slotState u.slot p) q).order u.slot = some (retiredOrder u r) :=
    (left.order _).trans (Part.order_setOrder_same _ _ _)
  have bay_q : (raiseOrdsta u.slot (slotState u.slot p) q).bay b = { p.bay b with state := .idle, bundle := none } :=
    (left.bay b).trans (Part.bay_setBay_same _ _ _)
  rw [body, retireReply, retiredItems, order_q, bay_q]
  dsimp only
  rw [slotStateItem_eq order_q]
  exact ⟨rfl, left⟩

/-- Settles O52. -/
theorem bdlretRetiresBundle : Obligations.BdlretRetiresBundle := by
  intro l number order serial b s running settled h p x answer named named' inRange inRange'
  have body {u : Bundle} (full : x.state = .full) (bundle : x.bundle = some u) :=
    serveBdlret_full (p := holding p) named named' inRange inRange' full bundle
  refine ⟨fun u r full bundle held order_eq serial_eq bay_held one unreserved => ?_, fun u full bundle other => ?_, fun state => ?_⟩
  · intro st
    subst order_eq serial_eq
    obtain ⟨said, left⟩ := retireFull_eq (p := holding p) held bay_held one unreserved
    have state : st = retiredState r := rfl
    rw [state]
    exact request_replies_after (body := serveBdlret (b.val + 1) u.order u.serial) rfl running settled h
      (by rw [body full bundle]; exact said) (by rw [body full bundle]; exact (holding_after _).trans left)
  · refine request_replies_still (body := serveBdlret (b.val + 1) order serial) rfl running settled h ?_
    rw [body full bundle, retireFull, if_pos other]
  · refine request_replies_still (body := serveBdlret (b.val + 1) order serial) rfl running settled h ?_
    have fits : (within 1 99999 order && within 1 9999 serial) = true := by simp [within, named, named', inRange, inRange']
    rw [serveBdlret, bayOf_succ]
    dsimp only
    rw [if_neg (by rw [fits]; decide)]
    exact if_pos state

end Sys2Proof.Machine

/-! PROOFS. Bays held and released (9.2, 9.3, 9.6). -/

namespace Sys2Proof.Machine

open Sys2Proof

theorem setBay_setBay (b : BayNo) (x y : Bay) (p : Part) : (p.setBay b x).setBay b y = p.setBay b y := by simp [Part.setBay]

/-! A CLOSING bundle evaluated anew (R185). -/

theorem reevalClosing_outcome {b : BayNo} {u : Bundle} {r : Order} {p : Part} (closing : (p.bay b).state = .closing)
    (bundle : (p.bay b).bundle = some u) (order : p.order u.slot = some r) : reevalClosing b p =
      match closingOutcome u r with
      | .stay => p
      | .reopen => p.setBay b { p.bay b with state := .opened }
      | .fill => enterFull b p := by
  rw [reevalClosing, if_pos closing, bundle]
  dsimp only
  rw [order] <;> rfl

theorem reevalClosing_idle {b : BayNo} {p : Part} (h : (p.bay b).state ≠ .closing) : reevalClosing b p = p := by
  rw [reevalClosing, if_neg h]

/-- What keeps a CLOSING bundle from being opened again. -/
def closes (u : Bundle) (r : Order) : Prop := r.target ≤ u.landed + u.transit ∨ u.short = true ∨ r.state ≠ .active

theorem closingOutcome_stay {u : Bundle} {r : Order} (transit : 0 < u.transit) (h : closes u r) : closingOutcome u r = .stay := by
  rw [closingOutcome, if_pos transit]
  by_cases full : r.target ≤ u.landed + u.transit
  · rw [if_pos full]
  · rw [if_neg full, if_pos (by simpa using h.resolve_left full)]

theorem closingOutcome_fill {u : Bundle} {r : Order} (transit : u.transit = 0) (h : closes u r) : closingOutcome u r = .fill := by
  rw [closingOutcome, if_neg (by omega)]
  by_cases full : r.target ≤ u.landed
  · rw [if_pos full]
  · rw [if_neg full, if_pos (by simpa using h.resolve_left (by omega))]

theorem closingOutcome_reopen {u : Bundle} {r : Order} (h : ¬ closes u r) : closingOutcome u r = .reopen := by
  obtain ⟨open_target, loose⟩ := not_or.1 h
  have loose' : ¬ (u.short || r.state != .active) = true := by simpa using loose
  by_cases transit : 0 < u.transit
  · rw [closingOutcome, if_pos transit, if_neg open_target]
    exact if_neg loose'
  · rw [closingOutcome, if_neg transit, if_neg (by omega)]
    exact if_neg loose'

/-! BAYHLD (R176, R184). -/

/-- The piece of a cancelled kick, UNSORTED. -/
def unsorted (y : Piece) : Piece := { y with state := .unsorted, bay := none, serial := none }

/-- The part after the hold of a bay with one kick, its bundle as z shows it. -/
def heldBay (b : BayNo) (y : Piece) (u : Bundle) (r : Order) (z : Bay) (p : Part) : Part :=
  writePiece (unsorted y) (((cancel (.kick b y.tag) (p.setKickQueue b [])).setBay b z).setOrder u.slot (some { r with
    transitArea := r.transitArea - y.area }))

theorem heldBay_bay (b : BayNo) (y : Piece) (u : Bundle) (r : Order) (z : Bay) (p : Part) : (heldBay b y u r z p).bay b = z :=
  Part.bay_setBay_same _ _ _

theorem heldBay_order (b : BayNo) (y : Piece) (u : Bundle) (r : Order) (z : Bay) (p : Part) :
    (heldBay b y u r z p).order u.slot = some { r with transitArea := r.transitArea - y.area } := Part.order_setOrder_same _ _ _

theorem heldBay_holding (b : BayNo) (y : Piece) (u : Bundle) (r : Order) (z : Bay) (p : Part) :
    After (heldBay b y u r z p) (heldBay b y u r z (holding p)) := holding_after _

theorem holdBay_idle {b : BayNo} {p : Part} (none_armed : p.kickQueue b = []) (state : (p.bay b).state ≠ .closing) :
    holdBay b p = (false, p) := by
  rw [holdBay, none_armed]
  exact congrArg (Prod.mk false) (reevalClosing_idle state)

/-- The hold of a bay with one kick, on the part with its flag set, from the re-evaluation of its bundle. -/
theorem holdBay_kick {b : BayNo} {k : KickEntry} {y : Piece} {u : Bundle} {r : Order} {p q : Part} (queue : p.kickQueue b = [k])
    (tag : k.tag = y.tag) (h : HoldsPiece y p) (bundle : (p.bay b).bundle = some u) (order : p.order u.slot = some r)
    (long : r.shortLength ≤ y.len) (undone : reevalClosing b (kickCancelled y.tag y.area b u r p) = q) :
    holdBay b p = (false, reevalClosing b (writePiece (unsorted y) q)) := by
  have step : cancelHeldKick b (⟨false, false⟩, p) k = (⟨false, false⟩, writePiece (unsorted y) q) := by
    rw [cancelHeldKick, if_neg Bool.false_ne_true, tag, lookup_piece .lif h]
    dsimp only
    rw [undoTransit_eq bundle order long, undone]
    rfl
  rw [holdBay, queue, List.foldl_cons, List.foldl_nil, step]
  rfl

/-- The part with a bay's flag set, and the kick of its one piece cancelled. -/
theorem kickCancelled_held {b : BayNo} {k : KickEntry} {y : Piece} {u : Bundle} {r : Order} {x : Bay} {p : Part}
    (queue : p.kickQueue b = [k]) (tag : k.tag = y.tag) (z : Bay) (shows : z = { x with bundle := some { u with transit := u.transit - y.area } }) :
    writePiece (unsorted y) (kickCancelled y.tag y.area b u r (p.setBay b x)) = heldBay b y u r z p := by
  have none_left : ((p.setBay b x).kickQueue b).filter (fun k => k.tag != y.tag) = [] := by
    rw [show (p.setBay b x).kickQueue b = [k] from queue]
    simp [tag]
  rw [kickCancelled, none_left, Part.bay_setBay_same, heldBay, shows,
    show cancel (.kick b y.tag) ((p.setBay b x).setKickQueue b []) = (cancel (.kick b y.tag) (p.setKickQueue b [])).setBay b x from rfl,
    setBay_setBay]

theorem heldBay_setBay {b : BayNo} {y : Piece} {u : Bundle} {r : Order} {z w : Bay} {p : Part} :
    (heldBay b y u r z p).setBay b w = heldBay b y u r w p := by
  rw [heldBay, heldBay]
  exact congrArg (fun q : Part => writePiece (unsorted y) (q.setOrder u.slot _)) (setBay_setBay b z w (cancel (.kick b y.tag) (p.setKickQueue b [])))

theorem writePiece_setBay (y : Piece) (b : BayNo) (w : Bay) (p : Part) : writePiece y (p.setBay b w) = (writePiece y p).setBay b w := rfl

/-- As before, the bay then set to another record. -/
theorem kickCancelled_setBay {b : BayNo} {k : KickEntry} {y : Piece} {u : Bundle} {r : Order} {x : Bay} {p : Part}
    (queue : p.kickQueue b = [k]) (tag : k.tag = y.tag) (w : Bay) :
    writePiece (unsorted y) ((kickCancelled y.tag y.area b u r (p.setBay b x)).setBay b w) = heldBay b y u r w p := by
  rw [writePiece_setBay, kickCancelled_held queue tag _ rfl, heldBay_setBay]

theorem withHold_fields (l : LinkNo) (v : Bool) (x : Bay) : (withHold l v x).state = x.state ∧ (withHold l v x).bundle = x.bundle := by
  unfold withHold
  split <;> exact ⟨rfl, rfl⟩

theorem serveBayhld_held {l : LinkNo} {b : BayNo} {p : Part} (h : (p.bay b).held = true) : serveBayhld l (b.val + 1) p =
    (⟨.done, holdReply (withHold l true (p.bay b)) 0⟩, p.setBay b (withHold l true (p.bay b))) := by
  rw [serveBayhld, bayOf_succ]
  dsimp only
  rw [if_pos h, Part.bay_setBay_same]
  rfl

theorem serveBayhld_unheld {l : LinkNo} {b : BayNo} {p q : Part} (h : (p.bay b).held = false)
    (held : holdBay b (p.setBay b (withHold l true (p.bay b))) = (false, q)) : serveBayhld l (b.val + 1) p =
    (⟨.done, holdReply (q.bay b) (p.kickQueue b).length⟩, q) := by
  rw [serveBayhld, bayOf_succ]
  dsimp only
  rw [if_neg (Bool.eq_false_iff.1 h)]
  rw [show setHold l true (p.bay b) = withHold l true (p.bay b) from rfl, held]
  rfl

/-- BAYHLD of an unheld bay with one kick, from what its hold leaves. -/
theorem hold_answers {l : LinkNo} {number : Nat} {b : BayNo} {k : KickEntry} {z : Bay} {e q : Part} {s : State} (running : Running s.part)
    (h : Takes l 0x40 s.part) (unheld : (s.part.bay b).held = false) (queue : s.part.kickQueue b = [k])
    (held : holdBay b ((holding s.part).setBay b (withHold l true (s.part.bay b))) = (false, q)) (after : After e q) (bay : e.bay b = z)
    (at_once : e.ztr.atOnce = []) : Replies (.bayhld l number (b.val + 1)) l 0x40 number s ⟨.done, holdReply z 1⟩ e := by
  have body := serveBayhld_unheld (l := l) (p := holding s.part) unheld held
  rw [show (holding s.part).kickQueue b = [k] from queue, after.bay, bay] at body
  obtain ⟨t, ran, pending, answered, behind⟩ := request_replies (.bayhld l number (b.val + 1)) l 0x40 number (serveBayhld l (b.val + 1)) s
    _ q rfl running h body (after.atOnce.trans at_once)
  exact ⟨t, ran, pending, answered, after.trans behind⟩

theorem kickCancelled_bay (y : Piece) (b : BayNo) (u : Bundle) (r : Order) (p : Part) : (kickCancelled y.tag y.area b u r p).bay b =
    { p.bay b with bundle := some { u with transit := u.transit - y.area } } := Part.bay_setBay_same _ _ _

/-! BAYREL (R177, R178). -/

theorem serveBayrel_still {l : LinkNo} {b : BayNo} {p : Part} (h : (withHold l false (p.bay b)).held = true
    ∨ (withHold l false (p.bay b)).state ≠ .idle) : serveBayrel l (b.val + 1) p =
    (⟨.done, holdReply (withHold l false (p.bay b)) 0⟩, p.setBay b (withHold l false (p.bay b))) := by
  have none_opens : ¬ ((p.bay b).held && !(withHold l false (p.bay b)).held && (withHold l false (p.bay b)).state == .idle) = true := by
    rcases h with held | state
    · simp [held]
    · simp [state]
  rw [serveBayrel, bayOf_succ]
  dsimp only
  rw [Part.bay_setBay_same, show setHold l false (p.bay b) = withHold l false (p.bay b) from rfl, if_neg none_opens, Part.bay_setBay_same]

theorem serveBayrel_opens {l : LinkNo} {b : BayNo} {p q : Part} (held : (p.bay b).held = true)
    (unheld : (withHold l false (p.bay b)).held = false) (idle : (withHold l false (p.bay b)).state = .idle)
    (opened : tryOpening (p.setBay b (withHold l false (p.bay b))) = q) : serveBayrel l (b.val + 1) p = (⟨.done, holdReply (q.bay b) 0⟩, q) := by
  rw [serveBayrel, bayOf_succ]
  dsimp only
  rw [Part.bay_setBay_same, show setHold l false (p.bay b) = withHold l false (p.bay b) from rfl,
    if_pos (by simp [held, unheld, idle]), opened]

/-- Settles O49. -/
theorem holdRequestsChangeBay : Obligations.HoldRequestsChangeBay := by
  refine ⟨fun l number b s running settled h => ?_, fun l number b k y u r s running settled h => ?_,
    fun l number b s running settled h => ?_⟩
  · intro p x answer
    refine ⟨fun held => ?_, fun unheld none_armed state => ?_, fun k y u r unheld queue tag piece opened bundle order long => ?_⟩
    · have body := serveBayhld_held (l := l) (p := holding p) held
      exact request_replies_after (body := serveBayhld l (b.val + 1)) rfl running settled h (by rw [body]; rfl)
        (by rw [body]; exact holding_after (p.setBay b x))
    · have body := serveBayhld_unheld (l := l) (p := holding p) unheld (holdBay_idle (p := (holding p).setBay b x) none_armed (by
        rw [Part.bay_setBay_same]; exact (setHold_bay l true (p.bay b)).2 ▸ state))
      rw [Part.bay_setBay_same, show (holding p).kickQueue b = [] from none_armed] at body
      exact request_replies_after (body := serveBayhld l (b.val + 1)) rfl running settled h (by rw [body]; rfl)
        (by rw [body]; exact holding_after (p.setBay b x))
    · intro z
      have bundle' : (((holding p).setBay b x).bay b).bundle = some u := by
        rw [Part.bay_setBay_same]; exact (withHold_fields l true (p.bay b)).2.trans bundle
      have state : z.state = .opened := (withHold_fields l true (p.bay b)).1.trans opened
      have still : reevalClosing b (kickCancelled y.tag y.area b u r ((holding p).setBay b x)) = kickCancelled y.tag y.area b u r ((holding p).setBay b x) := by
        refine reevalClosing_opened ?_
        rw [kickCancelled_bay, Part.bay_setBay_same]
        exact state
      have held := holdBay_kick (p := (holding p).setBay b x) queue tag piece bundle' order long still
      rw [kickCancelled_held (p := holding p) queue tag z rfl, reevalClosing_idle (by rw [heldBay_bay, state]; exact nofun)] at held
      exact hold_answers running h unheld queue held (heldBay_holding b y u r z p) (heldBay_bay b y u r z p)
        (cancel_atOnce (p := p) _ settled.1)
  · intro p x u' e answer kept unheld queue tag piece closing bundle order long
    let r' : Order := { r with transitArea := r.transitArea - y.area }
    let m := kickCancelled y.tag y.area b u r ((holding p).setBay b x)
    let z : Bay := { x with bundle := some u' }
    have bundle_x : (((holding p).setBay b x).bay b).bundle = some u := by
      rw [Part.bay_setBay_same]; exact (withHold_fields l true (p.bay b)).2.trans bundle
    have closing_z : z.state = .closing := (withHold_fields l true (p.bay b)).1.trans closing
    have bay_m : m.bay b = z := (kickCancelled_bay y b u r _).trans (by rw [Part.bay_setBay_same])
    have order_m : m.order u.slot = some r' := Part.order_setOrder_same _ _ _
    have written (w : Bay) : writePiece (unsorted y) (m.setBay b w) = heldBay b y u r w (holding p) :=
      kickCancelled_setBay (x := x) (p := holding p) queue tag w
    have evaluated := reevalClosing_outcome (p := m) (u := u') (r := r') (by rw [bay_m]; exact closing_z) (by rw [bay_m]) order_m
    have held {q : Part} (undone : reevalClosing b m = q) :=
      holdBay_kick (p := (holding p).setBay b x) queue tag piece bundle_x order long undone
    have at_once (w : Bay) : (heldBay b y u r w p).ztr.atOnce = [] := cancel_atOnce (p := p) _ settled.1
    refine ⟨fun transit stays => ?_, fun loose => ?_, fun transit stays idle delay => ?_⟩
    · have outcome : closingOutcome u' r' = .stay := closingOutcome_stay transit stays
      rw [outcome] at evaluated
      have stayed := held evaluated
      rw [kickCancelled_held (p := holding p) queue tag z rfl, reevalClosing_outcome (u := u') (r := r') (by rw [heldBay_bay]; exact closing_z)
        (by rw [heldBay_bay]) (heldBay_order b y u r z (holding p)), outcome] at stayed
      exact hold_answers running h unheld queue stayed (heldBay_holding b y u r z p) (heldBay_bay b y u r z p) (at_once z)
    · have outcome : closingOutcome u' r' = .reopen := closingOutcome_reopen loose
      rw [outcome] at evaluated
      intro w
      have reopened := held evaluated
      dsimp only at reopened
      rw [bay_m, written] at reopened
      have bay_w : (heldBay b y u r w (holding p)).bay b = w := heldBay_bay b y u r w (holding p)
      rw [reevalClosing_idle (by rw [bay_w]; exact nofun)] at reopened
      exact hold_answers running h unheld queue reopened (heldBay_holding b y u r w p) (heldBay_bay b y u r w p) (at_once w)
    · have outcome : closingOutcome u' r' = .fill := closingOutcome_fill transit stays
      rw [outcome] at evaluated
      intro v w
      have full := enterFull_after (p := m) (x := u') (r := r') (by rw [bay_m]) order_m idle delay
      have named : filled b u' r' m = m.setBay b w := by rw [filled, bay_m]; rfl
      have left : After (countedFull (heldBay b y u r w (holding p))) (writePiece (unsorted y) (enterFull b m)) := by
        have moved := full.map (f := writePiece (unsorted y)) (fun _ _ _ _ _ _ => rfl) fun _ => rfl
        rw [named] at moved
        rw [← written w]
        exact moved
      have filled_bay := held evaluated
      have bay_w : (writePiece (unsorted y) (enterFull b m)).bay b = w := (left.bay b).trans (heldBay_bay b y u r w p)
      rw [reevalClosing_idle (by rw [bay_w]; exact nofun)] at filled_bay
      exact hold_answers running h unheld queue filled_bay ((holding_after (countedFull (heldBay b y u r w p))).trans left)
        (heldBay_bay b y u r w p) (at_once w)
  · intro p x answer
    refine ⟨fun still => ?_, fun o r held unheld idle taken choice order => ?_⟩
    · have body := serveBayrel_still (l := l) (p := holding p) still
      exact request_replies_after (body := serveBayrel l (b.val + 1)) rfl running settled h (by rw [body]; rfl)
        (by rw [body]; exact holding_after (p.setBay b x))
    · intro z
      have bay : ((holding p).setBay b x).bay b = x := Part.bay_setBay_same _ _ _
      have opened := tryOpening_one (b := b) (p := (holding p).setBay b x) (by rw [bay]; exact idle) (by rw [bay]; exact unheld)
        (fun c other => by rw [Part.bay_setBay_other _ _ _ _ other.symm]; exact taken c other) choice order
      have body := serveBayrel_opens (l := l) (p := holding p) held unheld idle opened
      have left : ((((holding p).setBay b x).setOrder o (some { r with opened := r.opened + 1 })).setBay b { x with
          state := .opened, bundle := some ⟨o, r.number, r.opened + 1, 0, 0, 0, 0, 0, [], false, false, none⟩ }) =
          holding ((p.setOrder o (some { r with opened := r.opened + 1 })).setBay b z) :=
        setBay_setBay b x z (holding (p.setOrder o (some { r with opened := r.opened + 1 })))
      rw [bay, left] at body
      exact request_replies_after (body := serveBayrel l (b.val + 1)) rfl running settled h
        (by rw [body]; exact congrArg (fun v : Bay => (⟨.done, holdReply v 0⟩ : Reply)) (Part.bay_setBay_same _ _ _))
        (by rw [body]; exact holding_after _)

end Sys2Proof.Machine

/-! PROOFS. The kick and the landing (6.7, 8.5, 9.6). -/

namespace Sys2Proof.Machine

open Sys2Proof

theorem cancel_spent (e : Event) (p : Part) : cancel e (spent e p) = cancel e p := by simp [cancel, spent]

theorem retireSlot_setBay (i : SlotNo) (c : Retire) (b : BayNo) (x : Bay) (p : Part) :
    retireSlot i c (p.setBay b x) = (retireSlot i c p).setBay b x := by
  unfold retireSlot
  dsimp only
  rw [show (p.setBay b x).slot i = p.slot i from rfl]
  split
  · rfl
  · cases c <;> rfl

theorem retireSlot_pulse (i : SlotNo) (c : Retire) (v : Vector (Option Nat) 8) (p : Part) :
    retireSlot i c { p with acu.kickPulse := v } = { retireSlot i c p with acu.kickPulse := v } := by
  unfold retireSlot
  dsimp only
  rw [show Part.slot { p with acu.kickPulse := v } i = p.slot i from rfl]
  split
  · rfl
  · cases c <;> rfl

/-! The landing (R161, R183). -/

/-- A bundle that a piece lands in. -/
def landedBundle (y : Piece) (o : Order) (u : Bundle) : Bundle :=
  { u with
    transit := u.transit - y.area
    landed := u.landed + y.area
    shortTransit := if y.len < o.shortLength then u.shortTransit - y.area else u.shortTransit
    shortLanded := if y.len < o.shortLength then u.shortLanded + y.area else u.shortLanded
    count := if u.count < 255 then u.count + 1 else 255
    classes := countClass y.len u.classes }

/-- The order of a bundle that a piece lands in. -/
def landedOrder (y : Piece) (o : Order) : Order :=
  { o with transitArea := o.transitArea - y.area, landedArea := o.landedArea + y.area }

theorem landArea_eq {y : Piece} {b : BayNo} {u : Bundle} {o : Order} {p : Part} (bundle : (p.bay b).bundle = some u)
    (order : p.order u.slot = some o) : landArea b y.area y.len p =
      (p.setBay b { p.bay b with bundle := some (landedBundle y o u) }).setOrder u.slot (some (landedOrder y o)) := by
  rw [landArea, bundle]
  dsimp only
  rw [order]
  dsimp only
  simp only [isShort, decide_eq_true_eq]
  rw [changeBundle, bundle, changeOrder_some (by exact order)]
  rfl

/-- The part without the kick and the zone E entry of the piece that lands, its area moved, and KICKb driven. -/
def kicked (b : BayNo) (y : Piece) (slot : OrderNo) (o : Order) (x : Bay) (p : Part) : Part :=
  let q := cancel (.expiry .E) (cancel (.sort y.tag) (cancel (.kick b y.tag) p))
  (((q.setQueue .E []).setKickQueue b ((p.kickQueue b).filter fun k => k.tag != y.tag)).setBay b x).setOrder slot (some (landedOrder y o))

/-- The part that a landing leaves, with the bay's record and how many bundles have filled. -/
def landedIn (b : BayNo) (y : Piece) (slot : OrderNo) (o : Order) (x : Bay) (full : Nat) (p : Part) : Part :=
  { retireSlot (slotOf y.tag) (.piece .landed) (kicked b y slot o x p) with
    acu.kickPulse := p.acu.kickPulse.set b (some p.acu.kickWidth)
    lif.coalesce := some ⟨1, 0, full, p.lif.delay, 8 * p.lif.delay⟩ }

theorem landedIn_atOnce {b : BayNo} {y : Piece} {slot : OrderNo} {o : Order} {x : Bay} {full : Nat} {p : Part} (h : p.ztr.atOnce = []) :
    (landedIn b y slot o x full p).ztr.atOnce = [] :=
  (retireSlot_atOnce _ _ _).trans (cancel_atOnce (.expiry .E) (cancel_atOnce (.sort y.tag) (cancel_atOnce (.kick b y.tag) h)))

theorem landedIn_eq (b : BayNo) (y : Piece) (slot : OrderNo) (o : Order) (full : Nat) (p : Part) :
    ∃ q : Part, ∀ x : Bay, landedIn b y slot o x full p = q.setBay b x := by
  refine ⟨{ retireSlot (slotOf y.tag) (.piece .landed) ((((cancel (.expiry .E) (cancel (.sort y.tag) (cancel (.kick b y.tag) p))).setQueue
    .E []).setKickQueue b ((p.kickQueue b).filter fun k => k.tag != y.tag)).setOrder slot (some (landedOrder y o))) with
      acu.kickPulse := p.acu.kickPulse.set b (some p.acu.kickWidth)
      lif.coalesce := some ⟨1, 0, full, p.lif.delay, 8 * p.lif.delay⟩ }, fun x => ?_⟩
  rw [landedIn, kicked, show ∀ (q : Part) (r : Option Order), (q.setBay b x).setOrder slot r = (q.setOrder slot r).setBay b x from
    fun _ _ => rfl, retireSlot_setBay]
  rfl

theorem landedIn_bay (b : BayNo) (y : Piece) (slot : OrderNo) (o : Order) (x : Bay) (full : Nat) (p : Part) :
    (landedIn b y slot o x full p).bay b = x := by
  obtain ⟨q, e⟩ := landedIn_eq b y slot o full p
  rw [e, Part.bay_setBay_same]

theorem landedIn_setBay (b : BayNo) (y : Piece) (slot : OrderNo) (o : Order) (x w : Bay) (full : Nat) (p : Part) :
    (landedIn b y slot o x full p).setBay b w = landedIn b y slot o w full p := by
  obtain ⟨q, e⟩ := landedIn_eq b y slot o full p
  rw [e, e, setBay_setBay]

theorem landedIn_order (b : BayNo) (y : Piece) (slot : OrderNo) (o : Order) (x : Bay) (full : Nat) (p : Part) :
    (landedIn b y slot o x full p).order slot = some (landedOrder y o) := by
  have kept (i : SlotNo) (c : Retire) (q : Part) : (retireSlot i c q).order slot = q.order slot := by
    unfold retireSlot
    dsimp only
    split
    · rfl
    · cases c <;> rfl
  exact (kept _ _ _).trans (Part.order_setOrder_same _ _ _)

/-- A bay that fills while events are being counted. -/
theorem enterFull_pending {b : BayNo} {x : Bundle} {r : Order} {p : Part} {c : Coalesce} (bundle : (p.bay b).bundle = some x)
    (order : p.order x.slot = some r) (pending : p.lif.coalesce = some c) :
    After { filled b x r p with lif.coalesce := some ⟨c.landed, c.rejected, c.full + 1, p.lif.delay, c.ceilingTimer⟩ } (enterFull b p) := by
  have raised : After (filled b x r p) (raise (bdlrdy .supervisor b x r) (raise (bdlrdy (.role .labeller) b x r) (filled b x r p))) :=
    (raise_after _ _).trans (raise_after _ _)
  obtain ⟨coalesce, delay⟩ := raised.coalesce
  rw [enterFull_eq bundle order, countEvent_pending (coalesce.trans pending), delay]
  exact raised.map (f := fun q : Part => { q with
    lif.coalesce := some ⟨c.landed, c.rejected, c.full + 1, p.lif.delay, c.ceilingTimer⟩ }) (fun _ _ _ _ _ _ => rfl) fun _ => rfl

theorem removeTag_lone {z : Zone} {e : Entry} {t : Nat} {p : Part} (queue : p.queue z = [e]) (tag : e.tag = some t) :
    removeTag z t p = gone z e p := by
  rw [removeTag, queue]
  dsimp only
  rw [if_pos tag, popHead_only queue]
  rfl

theorem gone_sorted {e : Entry} {t : Nat} {p : Part} (tag : e.tag = some t) :
    gone .E e p = cancel (.expiry .E) (cancel (.sort t) (p.setQueue .E [])) := by
  rw [gone, entryGone, tag]

/-- The kick of a lone piece of zone E, up to the re-evaluation of its bay. -/
theorem takeKick_eq {b : BayNo} {y : Piece} {u : Bundle} {o : Order} {e : Entry} {p : Part} (h : HoldsPiece y p)
    (assigned : y.state = .assigned) (bundle : (p.bay b).bundle = some u) (order : p.order u.slot = some o) (queue : p.queue .E = [e])
    (tag : e.tag = some y.tag) (idle : p.lif.coalesce = none) (delay : 0 < p.lif.delay) :
    ∃ q, After (landedIn b y u.slot o { p.bay b with bundle := some (landedBundle y o u) } 0 p) q ∧ takeKick b y.tag p = closeAfterLanding b q := by
  let x : Bay := { p.bay b with bundle := some (landedBundle y o u) }
  let m : Part := { kicked b y u.slot o x p with acu.kickPulse := p.acu.kickPulse.set b (some p.acu.kickWidth) }
  have popped : removeTag .E y.tag (landArea b y.area y.len { removeKick b y.tag p with
      acu.kickPulse := p.acu.kickPulse.set b (some p.acu.kickWidth) }) = m := by
    rw [landArea_eq (u := u) (o := o) (by exact bundle) (by exact order), removeTag_lone (e := e) (by exact queue) tag, gone_sorted tag]
    rfl
  have retired : After { retireSlot (slotOf y.tag) (.piece .landed) m with lif.coalesce := some ⟨1, 0, 0, p.lif.delay, 8 * p.lif.delay⟩ }
      (countEvent .landed (retire (slotOf y.tag) (.piece .landed) m)) := by
    have left := retire_after (slotOf y.tag) (.piece .landed) m
    obtain ⟨coalesce, delay'⟩ := left.coalesce
    rw [retireSlot_links] at coalesce delay'
    have idle' : m.lif.coalesce = none := idle
    have delay_m : m.lif.delay = p.lif.delay := rfl
    rw [countEvent_idle (coalesce.trans idle') (by rw [delay', delay_m]; omega), delay', delay_m]
    exact left.map (f := fun q : Part => { q with lif.coalesce := some ⟨1, 0, 0, p.lif.delay, 8 * p.lif.delay⟩ }) (fun _ _ _ _ _ _ => rfl)
      fun _ => rfl
  refine ⟨countEvent .landed (retire (slotOf y.tag) (.piece .landed) m), ?_, ?_⟩
  · rw [retireSlot_pulse] at retired
    exact retired
  · rw [takeKick, lookup_piece .acu h]
    dsimp only
    rw [if_pos assigned, kickFires, land]
    exact congrArg (fun q => closeAfterLanding b (countEvent .landed (retire (slotOf y.tag) (.piece .landed) q))) popped

/-- The bay of a landing with no transit left, or not CLOSING. -/
theorem closeAfterLanding_still {b : BayNo} {u : Bundle} {p : Part} (bundle : (p.bay b).bundle = some u)
    (h : (p.bay b).state ≠ .closing ∨ 0 < u.transit) : closeAfterLanding b p = p := by
  rw [closeAfterLanding, bundle]
  dsimp only
  split
  · next transit => exact reevalClosing_idle (h.resolve_right (by omega))
  · rfl

theorem closeAfterLanding_last {b : BayNo} {u : Bundle} {p : Part} (bundle : (p.bay b).bundle = some u) (transit : u.transit = 0) :
    closeAfterLanding b p = reevalClosing b p := by
  rw [closeAfterLanding, bundle]
  exact if_pos transit

/-- The kick of a lone piece of zone E: from what its bay's re-evaluation leaves. -/
theorem kick_completes {b : BayNo} {y : Piece} {u : Bundle} {o : Order} {e : Entry} {s : State} {x : Bay} {full : Nat}
    (r : Running s.part) (settled : Settled s.part) (due : .kick b y.tag ∈ s.part.ztr.due) (h : HoldsPiece y s.part)
    (assigned : y.state = .assigned) (bundle : (s.part.bay b).bundle = some u) (order : s.part.order u.slot = some o)
    (queue : s.part.queue .E = [e]) (tag : e.tag = some y.tag) (idle : s.part.lif.coalesce = none) (delay : 0 < s.part.lif.delay)
    (evaluated : ∀ q, After (landedIn b y u.slot o { s.part.bay b with bundle := some (landedBundle y o u) } 0 s.part) q →
      After (landedIn b y u.slot o x full s.part) (closeAfterLanding b q)) :
    Completes (.kickFiring b y.tag) s (landedIn b y u.slot o x full s.part) := by
  obtain ⟨q, left, taken⟩ := takeKick_eq (p := spent (.kick b y.tag) s.part) h assigned bundle order queue tag idle delay
  have body : takeDue (.kick b y.tag) s.part = closeAfterLanding b q := (takeDue_of_mem due).trans taken
  have once (x : Bay) (full : Nat) : landedIn b y u.slot o x full (spent (.kick b y.tag) s.part) = landedIn b y u.slot o x full s.part := by
    rw [landedIn, kicked, cancel_spent]
    rfl
  rw [once] at left
  exact completes_of_after (f := takeDue (.kick b y.tag)) rfl r (by rw [body]; exact evaluated q left) (landedIn_atOnce settled.1)

/-- Settles O28. -/
theorem kickLandsPiece : Obligations.KickLandsPiece := by
  refine ⟨fun b y u o e s r settled => ?_, fun b y u o e s r settled => ?_⟩
  · intro p q u' o' due h assigned opened bundle order long queue tag idle delay
    have same : landedBundle y o u = u' := by
      rw [landedBundle, if_neg (by omega), if_neg (by omega)]
    have done := kick_completes (x := { s.part.bay b with bundle := some (landedBundle y o u) }) (full := 0) r settled due h assigned bundle
      order queue tag idle delay fun q left => by
        have bay := (left.bay b).trans (landedIn_bay b y u.slot o _ 0 s.part)
        rw [closeAfterLanding_still (u := landedBundle y o u) (by rw [bay]) (.inl (by
          rw [bay]; exact fun e => nomatch (show (s.part.bay b).state = .opened from opened).symm.trans e))]
        exact left
    rw [same] at done
    exact done
  · intro p q short u' v landed due h assigned closing bundle order queue tag idle delay
    have general {x : Bay} {full : Nat} := kick_completes (x := x) (full := full) r settled due h assigned bundle order queue tag idle delay
    refine ⟨fun transit => general fun q left => ?_, fun transit below loose active => general fun q left => ?_,
      fun transit ends => general fun q left => ?_⟩
    all_goals have bay := (left.bay b).trans (landedIn_bay b y u.slot o _ 0 s.part)
    · rw [closeAfterLanding_still (u := u') (by rw [bay]; rfl) (.inr transit)]
      exact left
    · have order_q := (left.order u.slot).trans (landedIn_order b y u.slot o _ 0 s.part)
      have outcome : closingOutcome u' (landedOrder y o) = .reopen := closingOutcome_reopen (by
        rw [closes, transit]
        rintro (target | kept | state)
        · exact absurd target (by have := below; show ¬ o.target ≤ u'.landed + 0; omega)
        · rw [show u'.short = u.short from rfl, loose] at kept
          exact nomatch kept
        · exact state active)
      rw [closeAfterLanding_last (u := u') (by rw [bay]; rfl) transit, reevalClosing_outcome (u := u') (r := landedOrder y o)
        (by rw [bay]; exact closing) (by rw [bay]; rfl) order_q, outcome]
      dsimp only
      rw [bay]
      have moved := left.map (f := fun p => p.setBay b { s.part.bay b with state := .opened, bundle := some u' }) (fun _ _ _ _ _ _ => rfl) fun _ => rfl
      dsimp only at moved
      rw [landedIn_setBay] at moved
      exact moved
    · have order_q := (left.order u.slot).trans (landedIn_order b y u.slot o _ 0 s.part)
      have outcome : closingOutcome u' (landedOrder y o) = .fill := closingOutcome_fill transit (by
        rw [closes, transit]
        exact ends)
      have coalesce : q.lif.coalesce = some ⟨1, 0, 0, s.part.lif.delay, 8 * s.part.lif.delay⟩ := left.coalesce.1
      have delay_q : q.lif.delay = s.part.lif.delay := left.coalesce.2.trans (by
        rw [landedIn, retireSlot_links]
        rfl)
      rw [closeAfterLanding_last (u := u') (by rw [bay]; rfl) transit, reevalClosing_outcome (u := u') (r := landedOrder y o)
        (by rw [bay]; exact closing) (by rw [bay]; rfl) order_q, outcome]
      dsimp only
      have full := enterFull_pending (x := u') (r := landedOrder y o) (by rw [bay]; rfl) order_q coalesce
      rw [delay_q, filled, bay] at full
      refine After.trans ?_ full
      have moved := left.map (f := fun p => { p.setBay b { s.part.bay b with
          state := .full, bundle := some { v with label := some (makeLabel b v o) } } with
        lif.coalesce := some ⟨1, 0, 1, s.part.lif.delay, 8 * s.part.lif.delay⟩ }) (fun _ _ _ _ _ _ => rfl) fun _ => rfl
      dsimp only at moved
      rw [landedIn_setBay] at moved
      exact moved

end Sys2Proof.Machine

/-! PROOFS. The sort decision (8.5, 9.4, 9.5). -/

namespace Sys2Proof.Machine

open Sys2Proof

/-! Which bay is chosen (R180). -/

theorem candidate_eq_some_iff {y : Piece} {p : Part} {b : BayNo} {c : Candidate} :
    candidate y p b = some c ↔ ∃ u o, IsCandidate y p b u o ∧ c = ⟨b, u.slot, o.priority, u.landed + u.transit⟩ := by
  have room : (p.kickQueue b).length < Config.kickCap ↔ (p.kickQueue b).length < 8 := Iff.rfl
  have fits : kickFits b y p = true ↔ (p.kickQueue b).length < 8
      ∧ ahead .E (minus .E (y.lead.getD 0 + (p.ztr.geo.kicks.getD b.val (0, 0)).1) (p.ztr.geo.kicks.getD b.val (0, 0)).2) (p.counter .E)
        < 8388608 := by
    simp only [kickFits, Bool.and_eq_true, decide_eq_true_eq, room, Bool.not_eq_true', behind, kickTarget]
    rw [show halfModulus .E = 8388608 from rfl]
    simp
  have takes (u : Bundle) (o : Order) : orderTakes y u o = true ↔ o.state = .active ∧ o.species = y.species ∧ o.grade = y.grade
      ∧ y.len ∈ o.classes ∧ u.landed + u.transit + y.area ≤ o.target + o.tolerance
      ∧ (y.len < o.shortLength → (u.shortLanded + u.shortTransit + y.area) * 100 ≤ o.shortCap * o.target) := by
    simp only [orderTakes, shortFits, isShort, Bool.and_eq_true, Bool.or_eq_true, decide_eq_true_eq, beq_iff_eq, List.contains_iff_mem,
      Bool.not_eq_true', decide_eq_false_iff_not, and_assoc, imp_iff_not_or]
  have unheld : (!(p.bay b).held) = true ↔ (p.bay b).supHold = false ∧ (p.bay b).staHold = false := by simp [Bay.held]
  unfold candidate
  split
  · next empty => simp [IsCandidate, empty]
  · next u bundle =>
    split
    · next empty =>
      simp only [IsCandidate, bundle, Option.some.injEq, reduceCtorEq, false_iff]
      rintro ⟨u', o, ⟨rfl, order, -⟩, -⟩
      exact nomatch empty.symm.trans order
    · next o order =>
      have all : ((p.bay b).state = .opened && !(p.bay b).held && orderTakes y u o && kickFits b y p) = true ↔ IsCandidate y p b u o := by
        rw [Bool.and_eq_true, Bool.and_eq_true, Bool.and_eq_true, unheld, takes, fits, decide_eq_true_eq, IsCandidate]
        simp only [bundle, order, true_and, and_assoc]
      by_cases k : IsCandidate y p b u o
      · rw [if_pos (all.2 k)]
        refine ⟨fun e => ⟨u, o, k, (Option.some.inj e).symm⟩, fun ⟨u', o', k', e⟩ => ?_⟩
        obtain ⟨bundle', order', -⟩ := k'
        obtain rfl : u = u' := Option.some.inj (bundle.symm.trans bundle')
        obtain rfl : o = o' := Option.some.inj (order.symm.trans order')
        rw [e]
      · rw [if_neg fun e => k (all.1 e)]
        refine ⟨nofun, fun ⟨u', o', k', _⟩ => ?_⟩
        obtain rfl : u = u' := Option.some.inj (bundle.symm.trans k'.1)
        obtain rfl : o = o' := Option.some.inj (order.symm.trans k'.2.1)
        exact absurd k' k

theorem mem_candidates_iff {y : Piece} {p : Part} {c : Candidate} :
    c ∈ candidates y p ↔ ∃ u o, IsCandidate y p c.bay u o ∧ c = ⟨c.bay, u.slot, o.priority, u.landed + u.transit⟩ := by
  simp only [candidates, List.mem_filterMap, List.mem_finRange, true_and, candidate_eq_some_iff]
  constructor
  · rintro ⟨b, u, o, k, rfl⟩
    exact ⟨u, o, k, rfl⟩
  · rintro ⟨u, o, k, e⟩
    exact ⟨c.bay, u, o, k, e⟩

theorem candidates_ordered (y : Piece) (p : Part) : (candidates y p).Pairwise fun a b => a.bay ≤ b.bay := by
  refine List.Pairwise.filterMap _ (fun b b' (h : b ≤ b') c hc d hd => ?_) (List.pairwise_le_finRange 8)
  obtain ⟨_, _, _, rfl⟩ := candidate_eq_some_iff.1 hc
  obtain ⟨_, _, _, rfl⟩ := candidate_eq_some_iff.1 hd
  exact h

theorem ranks_fuller : Ranks fuller where
  asymm a b := by simp only [fuller, decide_eq_true_eq, decide_eq_false_iff_not]; omega
  between a b c := by simp only [fuller, decide_eq_true_eq]; omega

theorem preferred_iff (a b : Candidate) : preferred a b = true ↔ b.priority < a.priority ∨ (a.priority = b.priority ∧ b.fill < a.fill) := by
  simp [preferred, fuller]

theorem ranks_preferred : Ranks preferred where
  asymm a b := by rw [← Bool.not_eq_true, preferred_iff, preferred_iff]; omega
  between a b c := by rw [preferred_iff, preferred_iff, preferred_iff]; omega

theorem bestOf_eq (better : Candidate → Candidate → Bool) (cs : List Candidate) : bestOf better cs = firstBest better cs := by
  cases cs <;> rfl

/-- The bay chosen, by what it beats. -/
theorem chooseBay_some {y : Piece} {p : Part} {c : Candidate} (h : chooseBay y p = some c) :
    c ∈ candidates y p
    ∧ ((∃ d ∈ candidates y p, some d.slot = y.reserved) → some c.slot = y.reserved
      ∧ ∀ d ∈ candidates y p, some d.slot = y.reserved → Beats fuller (fun a b => a.bay ≤ b.bay) c d)
    ∧ ((∀ d ∈ candidates y p, some d.slot ≠ y.reserved) → ∀ d ∈ candidates y p, Beats preferred (fun a b => a.bay ≤ b.bay) c d) := by
  have ordered := candidates_ordered y p
  have own (d : Candidate) : d ∈ (candidates y p).filter (fun c => some c.slot == y.reserved) ↔ d ∈ candidates y p ∧ some d.slot = y.reserved := by
    simp
  rw [chooseBay, bestOf_eq, bestOf_eq] at h
  split at h
  · next d best =>
    obtain rfl := Option.some.inj h
    obtain ⟨mem, beats⟩ := firstBest_some ranks_fuller (fun a => le_refl a.bay) (ordered.filter _) best
    obtain ⟨mem, reserved⟩ := (own d).1 mem
    exact ⟨mem, fun _ => ⟨reserved, fun e me re => beats e ((own e).2 ⟨me, re⟩)⟩, fun others => absurd reserved (others d mem)⟩
  · next none_own =>
    rw [firstBest_eq_none_iff, List.eq_nil_iff_forall_not_mem] at none_own
    obtain ⟨mem, beats⟩ := firstBest_some ranks_preferred (fun a => le_refl a.bay) ordered h
    exact ⟨mem, fun ⟨d, md, rd⟩ => absurd ((own d).2 ⟨md, rd⟩) (none_own d), fun _ => beats⟩

theorem chooseBay_none {y : Piece} {p : Part} (h : chooseBay y p = none) : candidates y p = [] := by
  rw [chooseBay, bestOf_eq, bestOf_eq] at h
  split at h
  · exact nomatch h
  · exact (firstBest_eq_none_iff _ _).1 h

end Sys2Proof.Machine

/-! PROOFS. Pieces assigned to a bay or left UNSORTED (8.5, 9.4). -/

namespace Sys2Proof.Machine

open Sys2Proof

theorem unsort_unreserved {y : Piece} {p : Part} (unreserved : y.reserved = none) : unsort y p = writePiece { y with state := .unsorted } p := by
  have released : release y p = p := by rw [release, unreserved]
  rw [unsort, released, ← unreserved]

theorem unsort_reserved {y : Piece} {o : OrderNo} {r : Order} {p : Part} (reserved : y.reserved = some o) (order : p.order o = some r) :
    unsort y p = writePiece { y with state := .unsorted, reserved := none }
      (p.setOrder o (some { r with reservedArea := r.reservedArea - y.area })) := by
  rw [unsort, release_reserved reserved order]
  exact writePiece_writePiece (by rfl) _

theorem addTransit_eq {y : Piece} {b : BayNo} {u : Bundle} {o : Order} {p : Part} (bundle : (p.bay b).bundle = some u)
    (order : p.order u.slot = some o) : addTransit b y.area y.len p = (p.setBay b { p.bay b with bundle := some { u with
      transit := u.transit + y.area
      shortTransit := if y.len < o.shortLength then u.shortTransit + y.area else u.shortTransit } }).setOrder u.slot
        (some { o with transitArea := o.transitArea + y.area }) := by
  rw [addTransit, bundle]
  dsimp only
  rw [order]
  dsimp only
  simp only [isShort, decide_eq_true_eq]
  rw [changeBundle, bundle, changeOrder_some (by exact order)]
  rfl

theorem insertForward_between {α : Type} {z : Zone} {pos : α → Nat} {e : α} {nearer further : List α}
    (behind : ∀ x ∈ nearer, precedes z (pos e) (pos x) = false) (ahead : ∀ x ∈ further.head?, precedes z (pos e) (pos x) = true) :
    insertForward z pos e (nearer ++ further) = nearer ++ e :: further := by
  have take : (nearer ++ further).takeWhile (fun x => !precedes z (pos e) (pos x)) = nearer := by
    rw [List.takeWhile_append_of_pos (fun x m => by simp [behind x m])]
    cases further with
    | nil => simp
    | cons x xs => simp [ahead x (by simp)]
  have drop : (nearer ++ further).dropWhile (fun x => !precedes z (pos e) (pos x)) = further := by
    rw [List.dropWhile_append_of_pos (fun x m => by simp [behind x m])]
    cases further with
    | nil => simp
    | cons x xs => simp [ahead x (by simp)]
  rw [insertForward, take, drop]

/-- The piece assigned to the bay. -/
def assigned (y : Piece) (b : BayNo) (u : Bundle) : Piece :=
  { y with state := .assigned, reserved := none, bay := some b, serial := some u.serial }

/-- The bundle that a piece is bound for. -/
def boundBundle (y : Piece) (o : Order) (u : Bundle) : Bundle :=
  { u with
    transit := u.transit + y.area
    shortTransit := if y.len < o.shortLength then u.shortTransit + y.area else u.shortTransit }

/-- The part with the piece assigned, its kick armed among the bay's others, its reservation released before. -/
def assignedTo (y : Piece) (b : BayNo) (u : Bundle) (o : Order) (kicks : List KickEntry) (p : Part) : Part :=
  { (((writePiece (assigned y b u) p).setKickQueue b kicks).setBay b { p.bay b with
      state := if o.target ≤ u.landed + (u.transit + y.area) then .closing else (p.bay b).state
      bundle := some (boundBundle y o u) }).setOrder u.slot (some { o with transitArea := o.transitArea + y.area }) with
    ztr.compares := p.ztr.compares ++ [⟨.kick b y.tag, kickTarget b (y.lead.getD 0) p⟩] }

theorem closeAtTarget_eq {b : BayNo} {u : Bundle} {o : Order} {p : Part} (bundle : (p.bay b).bundle = some u) (order : p.order u.slot = some o) :
    closeAtTarget b p = if o.target ≤ u.landed + u.transit then p.setBay b { p.bay b with state := .closing } else p := by
  rw [closeAtTarget, bundle]
  dsimp only
  rw [order]

theorem assign_eq {y : Piece} {b : BayNo} {u : Bundle} {o : Order} {kicks : List KickEntry} {p m : Part} (released : release y p = m)
    (bundle : (m.bay b).bundle = some u) (order : m.order u.slot = some o)
    (placed : insertForward .E (·.target) ⟨kickTarget b (y.lead.getD 0) m, y.tag⟩ (m.kickQueue b) = kicks)
    (ahead : strictlyAhead .E (kickTarget b (y.lead.getD 0) m) (m.counter .E) = true) : assign y b p = assignedTo y b u o kicks m := by
  let x : Bay := { m.bay b with bundle := some (boundBundle y o u) }
  let a : Part := (m.setBay b x).setOrder u.slot (some { o with transitArea := o.transitArea + y.area })
  let c : Part := { a.setKickQueue b kicks with ztr.compares := m.ztr.compares ++ [⟨.kick b y.tag, kickTarget b (y.lead.getD 0) m⟩] }
  have added : addTransit b y.area y.len m = a := addTransit_eq bundle order
  have target : kickTarget b (y.lead.getD 0) a = kickTarget b (y.lead.getD 0) m := rfl
  have armed : insertKick b (kickTarget b (y.lead.getD 0) m) y.tag a = c := by
    rw [insertKick, arm_ahead (by exact ahead), show a.kickQueue b = m.kickQueue b from rfl, placed]
    rfl
  have bay_c : c.bay b = x := Part.bay_setBay_same (m.setOrder u.slot (some { o with transitArea := o.transitArea + y.area })) b x
  have order_c : c.order u.slot = some { o with transitArea := o.transitArea + y.area } := Part.order_setOrder_same _ _ _
  have moved : assign y b p = closeAtTarget b (writePiece (assigned y b u) c) := by
    rw [assign, released, added, target, armed, bay_c]
    rfl
  rw [moved, closeAtTarget_eq (p := writePiece (assigned y b u) c) (u := boundBundle y o u) (by exact congrArg Bay.bundle bay_c) order_c, assignedTo]
  by_cases full : o.target ≤ u.landed + (u.transit + y.area)
  · rw [if_pos (by exact full), if_pos full, show (writePiece (assigned y b u) c).bay b = x from bay_c]
    exact congrArg (fun v : Part => ({ (writePiece (assigned y b u) (v.setOrder u.slot (some { o with
        transitArea := o.transitArea + y.area }))).setKickQueue b kicks with
      ztr.compares := m.ztr.compares ++ [(⟨.kick b y.tag, kickTarget b (y.lead.getD 0) m⟩ : Compare)] } : Part))
      (setBay_setBay b x { x with state := .closing } m)
  · rw [if_neg (by exact full), if_neg full]
    rfl

theorem takeSort_eq {y : Piece} {p : Part} (h : HoldsPiece y p) (state : y.state = .beltE) : takeSort y.tag p = sortPiece y p := by
  rw [takeSort, lookup_piece .bas h]
  exact if_pos state

theorem sortPiece_unsorted {y : Piece} {p : Part} (h : y.unsure = true ∨ y.grade = .W ∨ chooseBay y p = none) : sortPiece y p = unsort y p := by
  by_cases k : y.unsure = true ∨ y.grade = .W
  · rw [sortPiece, if_pos (by simpa using k)]
  · obtain ⟨sure, grade⟩ := not_or.1 k
    rw [sortPiece, if_neg (by simpa using k), (h.resolve_left sure).resolve_left grade]

theorem sortPiece_assigned {y : Piece} {c : Candidate} {p : Part} (sure : y.unsure = false) (grade : y.grade ≠ .W)
    (choice : chooseBay y p = some c) : sortPiece y p = assign y c.bay p := by
  rw [sortPiece, if_neg (by simp [sure, grade]), choice]

/-- Settles O29. -/
theorem sortCompareAssignsPiece : Obligations.SortCompareAssignsPiece := by
  refine ⟨fun y s r settled => ?_, fun y s r settled => ?_, fun y p => ?_⟩
  · intro p due h state unreserved
    have body : takeDue (.sort y.tag) s.part = sortPiece y p := (takeDue_of_mem due).trans (takeSort_eq h state)
    refine ⟨fun waste => ?_, fun c u o sure grade choice bundle order long none_armed => ?_⟩
    · refine completes_of_eq rfl r ?_ settled.1
      rw [body, sortPiece_unsorted (waste.imp_right .inl), unsort_unreserved unreserved]
    · intro k ahead
      refine completes_of_eq rfl r ?_ settled.1
      have released : release y p = p := by rw [release, unreserved]
      rw [body, sortPiece_assigned sure grade choice, assign_eq released bundle order (kicks := [⟨k, y.tag⟩]) (by rw [none_armed]; rfl) ahead,
        assignedTo, boundBundle, if_neg (show ¬ y.len < o.shortLength by omega), assigned, ← unreserved]
  · intro p less due h state
    have body : takeDue (.sort y.tag) s.part = sortPiece y p := (takeDue_of_mem due).trans (takeSort_eq h state)
    refine ⟨fun choice unreserved => ?_, fun o k waste reserved order => ?_,
      fun c u o k q nearer further sure grade choice reserved order bundle order' queue => ?_⟩
    · refine completes_of_eq rfl r ?_ settled.1
      rw [body, sortPiece_unsorted (.inr (.inr choice)), unsort_unreserved unreserved]
    · refine completes_of_eq rfl r ?_ settled.1
      rw [body, sortPiece_unsorted waste, unsort_reserved reserved order]
    · intro target filled behind front ahead
      refine completes_of_eq rfl r ?_ settled.1
      let m : Part := writePiece { y with reserved := none } (less o k)
      have placed : insertForward .E (·.target) ⟨kickTarget c.bay (y.lead.getD 0) m, y.tag⟩ (m.kickQueue c.bay) =
          nearer ++ ⟨target, y.tag⟩ :: further := by
        rw [show m.kickQueue c.bay = nearer ++ further from queue]
        exact insertForward_between (e := (⟨target, y.tag⟩ : KickEntry)) behind front
      rw [body, sortPiece_assigned sure grade choice, assign_eq (m := m) (release_reserved reserved order) bundle order' placed ahead, assignedTo,
        boundBundle, show writePiece (assigned y c.bay u) m = writePiece (assigned y c.bay u) (less o k) from writePiece_writePiece (by rfl) _]
      rfl
  · intro fuller'
    have weighed {b : BayNo} {v : Bundle} {k : Order} (is : IsCandidate y p b v k) :
        (⟨b, v.slot, k.priority, v.landed + v.transit⟩ : Candidate) ∈ candidates y p := mem_candidates_iff.2 ⟨v, k, is, rfl⟩
    refine ⟨fun c choice => ?_, fun choice b u o is => ?_⟩
    · obtain ⟨mem, own, all⟩ := chooseBay_some choice
      obtain ⟨u, o, is, shape⟩ := mem_candidates_iff.1 mem
      have slot : c.slot = u.slot := by rw [shape]
      have fill : c.fill = u.landed + u.transit := by rw [shape]
      have priority : c.priority = o.priority := by rw [shape]
      refine ⟨u, o, is, fun ⟨b, v, k, is', reserved⟩ => ?_, fun others b v k is' => ?_⟩
      · obtain ⟨reserved_c, beats⟩ := own ⟨_, weighed is', reserved.symm⟩
        refine ⟨slot ▸ reserved_c.symm, fun b v k is' reserved => ?_⟩
        rcases beats _ (weighed is') reserved.symm with better | ⟨not_better, first⟩
        · exact .inl (by simpa [fuller, fill] using better)
        · simp only [fuller, decide_eq_false_iff_not, fill] at not_better
          rcases Nat.lt_or_ge (v.landed + v.transit) (u.landed + u.transit) with less | same
          · exact .inl less
          · exact .inr ⟨by omega, first⟩
      · have none_own (d : Candidate) (md : d ∈ candidates y p) : some d.slot ≠ y.reserved := by
          obtain ⟨v, k, is', shape'⟩ := mem_candidates_iff.1 md
          rw [show d.slot = v.slot by rw [shape']]
          exact (others _ v k is').symm
        rcases all none_own _ (weighed is') with better | ⟨not_better, first⟩
        · rw [preferred_iff] at better
          rcases better with lower | ⟨same, less⟩
          · exact .inl (priority ▸ lower)
          · exact .inr ⟨priority ▸ same.symm, .inl (fill ▸ less)⟩
        · rw [← Bool.not_eq_true, preferred_iff, priority, fill] at not_better
          dsimp only at not_better
          rcases Nat.lt_or_ge k.priority o.priority with lower | not_lower
          · exact .inl lower
          · refine .inr ⟨by omega, ?_⟩
            rcases Nat.lt_or_ge (v.landed + v.transit) (u.landed + u.transit) with less | same
            · exact .inl less
            · exact .inr ⟨by omega, first⟩
    · have member := weighed is
      rw [chooseBay_none choice] at member
      exact List.not_mem_nil member

end Sys2Proof.Machine

/-! PROOFS. Defect maps posted, and outcomes of the end-matcher (4.2, 4.3, 4.5, 7.5, 8.4). -/

namespace Sys2Proof.Machine

open Sys2Proof

theorem After.of_eq {p q : Part} (h : p = q) : After p q := h ▸ .refl p

/-! MAPPOST (R77 to R82). -/

theorem serveMappost_strip {x : Strip} {f : MapForm} {p : Part} (tag : f.tag = x.tag) (h : HoldsStrip x p) (few : f.defects.length ≤ 16)
    (classes : ∀ d ∈ f.defects, d.cls ≤ 15) : serveMappost f p = postMap x f p := by
  have inRange : MapForm.inRange f = true := by simpa [MapForm.inRange, few] using classes
  rw [serveMappost, tag, lookup_strip .lif h]
  dsimp only
  rw [if_pos inRange]

/-- A map that agrees with L_B passes to its last tests. -/
theorem postMap_agrees {x : Strip} {f : MapForm} {len : Nat} {p : Part} (scanning : x.state = .scanning) (length : x.lenB = some len)
    (near : f.length ≤ len + p.ztr.geo.lTol) (near' : len ≤ f.length + p.ztr.geo.lTol) : postMap x f p =
      if f.overflow then (⟨.done, []⟩, (rejectStrip .lif .mapOverflow { x with map := some ⟨f.defects, true⟩ } p).2)
      else if 32 ≤ p.cpl.queue.length then (⟨.overload, []⟩, (rejectStrip .lif .overload x p).2)
      else acceptMap x f p := by
  have agrees := (absDiff_le_iff f.length len p.ztr.geo.lTol).2 ⟨near, near'⟩
  rw [postMap, if_neg (by rw [scanning]; exact fun e => nomatch e.1), if_neg (not_not.2 scanning), length, Option.getD_some,
    if_neg (Nat.not_lt.2 agrees)]
  rfl

/-- The tail of the planner queue, planned at once. -/
theorem startPlanning_alone {x : Strip} {p : Part} (h : HoldsStrip x p) (queue : p.cpl.queue = [x.tag]) (idle : p.cpl.job = none) :
    startPlanning p = beginPlan x { p with cpl.queue := [] } := by
  rw [startPlanning, idle, Option.isSome_none, if_neg Bool.false_ne_true, queue, List.length_singleton, takeHeads, queue]
  dsimp only
  rw [lookup_strip .cpl h]

/-- Settles O43. -/
theorem mappostQueuesOrRejectsStrip : Obligations.MappostQueuesOrRejectsStrip := by
  refine ⟨fun l number len x f s running settled h => ?_, fun l number len x f s running settled h => ?_⟩
  · intro p y tag piece scanning length few classes near near' whole
    have body (room : p.cpl.queue.length < 32) : serveMappost f (holding p) = acceptMap x f (holding p) := by
      rw [serveMappost_strip (p := holding p) tag piece few classes, postMap_agrees (p := holding p) scanning length near near', whole,
        if_neg Bool.false_ne_true]
      exact if_neg (show ¬ 32 ≤ p.cpl.queue.length by omega)
    let q : Part := { writeStrip { y with state := .mapped } p with cpl.queue := p.cpl.queue ++ [x.tag] }
    have accepted : acceptMap x f (holding p) = (⟨.done, [.u8 (p.cpl.queue ++ [x.tag]).length, flagItem p.cpl.job.isSome]⟩,
      startPlanning (holding q)) := rfl
    refine ⟨fun j busy room => ?_, fun idle queue => ?_⟩
    · have still : startPlanning (holding q) = holding q := by
        rw [startPlanning, show (holding q).cpl.job = some j from busy]
        rfl
      refine request_replies_after (body := serveMappost f) rfl running settled h ?_ ?_
      · rw [body room, accepted, busy, List.length_append]
        rfl
      · rw [body room, accepted, still]
        exact holding_after q
    · have held : HoldsStrip { y with state := .mapped } (holding q) := HoldsStrip.written (x := x) piece rfl
      have started := startPlanning_alone held (show p.cpl.queue ++ [x.tag] = [x.tag] by rw [queue]; rfl) idle
      refine request_replies_after (body := serveMappost f) rfl running settled h ?_ ?_
      · rw [body (by rw [queue]; decide), accepted, idle, queue]
        rfl
      · rw [body (by rw [queue]; decide), accepted, started, beginPlan]
        dsimp only
        have twice := writeStrip_writeStrip (x := { y with state := .mapped }) (y := { y with state := .planning }) rfl p
        have snapshot : snapshotOf { y with state := .mapped } { holding q with cpl.queue := [] } = ⟨len, f.defects, profileOf x.ctx p, gradeTable x.species p,
            p.ztr.geo.rSaw, bonusTable (profileOf x.ctx p) x.species p⟩ := by
          rw [snapshotOf, show ({ y with state := .mapped } : Strip).lenB = some len from length]
          rfl
        have emptied : ({ p with cpl.queue := [] } : Part) = p := by rw [← queue]
        rw [snapshot]
        refine (holding_after _).trans (After.of_eq ?_)
        rw [← twice]
        exact congrArg (fun m : Part => holding { writeStrip { y with state := .planning } (writeStrip { y with state := .mapped } m) with
          cpl.job := _ }) emptied.symm
  · intro p q agrees answer tag piece length few classes
    have body := serveMappost_strip (p := holding p) tag piece few classes
    refine ⟨fun rejecting noMap => ?_, fun past not_late => ?_, fun scanning apart => ?_, fun scanning near overflowed => ?_,
      fun scanning near whole full => ?_⟩
    · refine request_replies_still (body := serveMappost f) rfl running settled h ?_
      rw [body, postMap, if_pos ⟨rejecting, noMap⟩]
    · refine request_replies_still (body := serveMappost f) rfl running settled h ?_
      rw [body, postMap, if_neg not_late, if_pos past]
    · refine request_replies_still (body := serveMappost f) rfl running settled h ?_
      have differs : ¬ absDiff f.length len ≤ p.ztr.geo.lTol := fun e => apart ((absDiff_le_iff _ _ _).1 e)
      rw [body, postMap, if_neg (by rw [scanning]; exact fun e => nomatch e.1), if_neg (not_not.2 scanning), length, Option.getD_some]
      exact if_pos (Nat.not_le.1 differs)
    · have rejected := rejectStrip_early (s := { x with map := some ⟨f.defects, true⟩ }) (p := holding p) .lif .mapOverflow
        (by rw [scanning]; exact nofun) (by rw [scanning]; exact nofun) (by rw [scanning]; exact nofun)
      have whole := postMap_agrees (p := holding p) scanning length near.1 near.2
      rw [overflowed, if_pos rfl, rejected] at whole
      refine request_replies_after (body := serveMappost f) rfl running ?_ h (by rw [body, whole]) (by
        rw [body, whole]; exact holding_after _)
      exact ⟨cancel_atOnce (p := leavePlanner x.tag p) _ settled.1, settled.2⟩
    · have rejected := rejectStrip_early (s := x) (p := holding p) .lif .overload
        (by rw [scanning]; exact nofun) (by rw [scanning]; exact nofun) (by rw [scanning]; exact nofun)
      have posted := postMap_agrees (p := holding p) scanning length near.1 near.2
      rw [whole, if_neg Bool.false_ne_true, if_pos (show 32 ≤ (holding p).cpl.queue.length from full), rejected] at posted
      refine request_replies_after (body := serveMappost f) rfl running ?_ h (by rw [body, posted]) (by
        rw [body, posted]; exact holding_after _)
      exact ⟨cancel_atOnce (p := leavePlanner x.tag p) _ settled.1, settled.2⟩

/-! OUTCOME (R144 to R148). -/

theorem gradeAfter_lowered (spoiled : Bool) (g : Grade) : gradeAfter (if spoiled then .spoiled else .downgrade) g = gradeLowered spoiled g := by
  cases spoiled <;> cases g <;> rfl

theorem gradeLowered_ne {g : Grade} (spoiled : Bool) (h : g ≠ .W) : gradeLowered spoiled g ≠ g := by
  cases g with
  | W => exact absurd rfl h
  | A => cases spoiled <;> exact nofun
  | B => cases spoiled <;> exact nofun
  | C => exact nofun

theorem outcomeItems_eq (y : Piece) : outcomeItems (some y) = [Item.u8 1, .u8 y.grade.ctorIdx] ++ match y.reserved with
    | none => [.u8 0]
    | some o => [.u8 1, .u8 o.val] := by
  unfold outcomeItems
  cases reserved : y.reserved <;> simp [optItems, reserved]

theorem serveOutcome_piece {y : Piece} {n : Nat} {r : EndResult} {p : Part} (named : resultOf n = some r) (h : HoldsPiece y p) :
    serveOutcome y.tag n p = postOutcome r y p := by
  rw [serveOutcome, named]
  dsimp only
  rw [lookup_piece .lif h]

/-- The part with an area taken out of the reserved area of an order, if one is named. -/
def lessArea (r : Option OrderNo) (area : Nat) (p : Part) : Part :=
  match r with
  | none => p
  | some o => p.setOrder o ((p.order o).map fun r => { r with reservedArea := r.reservedArea - area })

theorem lessArea_holding (r : Option OrderNo) (area : Nat) (p : Part) : lessArea r area (holding p) = holding (lessArea r area p) := by
  cases r <;> rfl

theorem lessArea_rst (r : Option OrderNo) (area : Nat) (p : Part) : (lessArea r area p).rst = p.rst := by cases r <;> rfl

theorem lessArea_settled {p : Part} (r : Option OrderNo) (area : Nat) (h : Settled p) : Settled (lessArea r area p) := by
  cases r <;> exact h

/-- A piece rewritten as its reservation is released. -/
theorem writePiece_release {x y : Piece} (tag : x.tag = y.tag) (p : Part) : writePiece x (release y p) = writePiece x (lessArea y.reserved y.area p) := by
  unfold release lessArea
  cases y.reserved with
  | none => rfl
  | some o => exact writePiece_writePiece (x := { y with reserved := none }) tag.symm _

/-- A piece of grade W takes the flag alone; one whose grade changes is released, and attributed afresh. -/
theorem degrade_waste {y : Piece} {p : Part} (spoiled : Bool) (h : y.grade = .W) :
    degrade (if spoiled then .spoiled else .downgrade) y p = writePiece { y with downgraded := true } p := by
  unfold degrade
  dsimp only
  rw [gradeAfter_lowered, h]
  exact if_pos rfl

theorem degrade_changed {y : Piece} {p : Part} (spoiled : Bool) (h : y.grade ≠ .W) :
    let x := { y with grade := gradeLowered spoiled y.grade, downgraded := true, reserved := none }
    degrade (if spoiled then .spoiled else .downgrade) y p =
      if y.unsure then writePiece x (lessArea y.reserved y.area p) else reservePiece x (writePiece x (lessArea y.reserved y.area p)) := by
  intro x
  unfold degrade
  dsimp only
  rw [gradeAfter_lowered, if_neg (gradeLowered_ne spoiled h), writePiece_release (x := x) (y := y) rfl p]

/-- A result on a piece in LUG or BELT_E that is not yet DOWNGRADED, from the record it leaves. -/
theorem postOutcome_degrades {x y : Piece} {m p : Part} (spoiled : Bool) (belt : y.state = .lug ∨ y.state = .beltE) (fresh : y.downgraded = false)
    (degraded : degrade (if spoiled then .spoiled else .downgrade) y p = writePiece x m) (h : HoldsPiece y m) (tag : x.tag = y.tag) :
    postOutcome (if spoiled then .spoiled else .downgrade) y p = (⟨.done, outcomeItems (some x)⟩, writePiece x m) := by
  have not_ok : ¬ ((if spoiled then .spoiled else .downgrade : EndResult) = .ok) := by cases spoiled <;> exact nofun
  have record : pieceAt y.tag (writePiece x m) = some x := by
    have written := recordAt_piece (h.written tag)
    rw [tag] at written
    rw [pieceAt, written]
  have belted : postOutcome (if spoiled then .spoiled else .downgrade) y p =
      if y.downgraded then (⟨.wrongState, outcomeItems (some y)⟩, p)
      else if (if spoiled then .spoiled else .downgrade : EndResult) = .ok then (⟨.done, outcomeItems (some y)⟩, p)
      else (⟨.done, outcomeItems (pieceAt y.tag (degrade (if spoiled then .spoiled else .downgrade) y p))⟩,
        degrade (if spoiled then .spoiled else .downgrade) y p) := by
    unfold postOutcome
    rcases belt with e | e <;> rw [e]
  rw [belted, fresh, if_neg Bool.false_ne_true, if_neg not_ok, degraded, record]

theorem postOutcome_ok {y : Piece} {p : Part} (belt : y.state = .lug ∨ y.state = .beltE) (fresh : y.downgraded = false) :
    postOutcome .ok y p = (⟨.done, outcomeItems (some y)⟩, p) := by
  unfold postOutcome
  rcases belt with e | e
  · rw [e]
    dsimp only
    rw [fresh]
    rfl
  · rw [e]
    dsimp only
    rw [fresh]
    rfl

theorem postOutcome_wrongState {r : EndResult} {y : Piece} {p : Part}
    (h : (y.state = .lug ∨ y.state = .beltE) ∧ y.downgraded = true ∨ y.state = .planned ∨ y.state = .beltC) :
    postOutcome r y p = (⟨.wrongState, outcomeItems (some y)⟩, p) := by
  unfold postOutcome
  rcases h with ⟨e | e, down⟩ | e | e
  · rw [e]
    dsimp only
    rw [down]
    rfl
  · rw [e]
    dsimp only
    rw [down]
    rfl
  · rw [e]
  · rw [e]

theorem postOutcome_unsorted {r : EndResult} {y : Piece} {p : Part} (h : y.state = .unsorted) :
    postOutcome r y p = (⟨.late, outcomeItems (some y)⟩, p) := by
  unfold postOutcome
  rw [h]

theorem postOutcome_assigned {r : EndResult} {y : Piece} {p : Part} (h : y.state = .assigned) :
    postOutcome r y p = (⟨.late, outcomeItems (some y)⟩, if r = .ok then p else flagInspect y p) := by
  unfold postOutcome
  rw [h]

theorem resultOf_le {n : Nat} (h : n ≤ 2) : ∃ r, resultOf n = some r ∧ (r = .ok ↔ n = 0) := by
  match n, h with
  | 0, _ => exact ⟨.ok, rfl, by decide⟩
  | 1, _ => exact ⟨.downgrade, rfl, by decide⟩
  | 2, _ => exact ⟨.spoiled, rfl, by decide⟩

theorem resultOf_above {n : Nat} (h : 2 < n) : resultOf n = none := by
  match n, h with
  | _ + 3, _ => rfl

theorem resultOf_spoiled (spoiled : Bool) : resultOf (if spoiled then 2 else 1) = some (if spoiled then .spoiled else .downgrade) := by
  cases spoiled <;> rfl

/-- Settles O44. -/
theorem outcomeChangesGrade : Obligations.OutcomeChangesGrade := by
  intro l number s running settled h p fields answer
  have still {tag n : Nat} {r : Reply} (body : serveOutcome tag n (holding p) = (r, holding p)) : answer tag n r p :=
    request_replies_still (body := serveOutcome tag n) rfl running settled h body
  have items (y : Piece) : outcomeItems (some y) = fields y.grade y.reserved := outcomeItems_eq y
  refine ⟨fun y piece belt fresh => ⟨?_, fun spoiled => ?_⟩, fun y n piece small => ⟨fun past => ?_, fun unsorted => ?_, fun assigned zero => ?_,
    fun b u assigned bay bundle nonzero => ?_⟩, fun x n strip small => ?_, fun tag n clean small gone => ?_, fun tag n large => ?_⟩
  · refine still ?_
    rw [serveOutcome_piece (p := holding p) rfl piece, postOutcome_ok belt fresh, items]
  · intro g x result q
    have body (n : Nat) (e : n = result) : serveOutcome y.tag n (holding p) =
        postOutcome (if spoiled then .spoiled else .downgrade) y (holding p) := by
      rw [e]
      exact serveOutcome_piece (p := holding p) (resultOf_spoiled spoiled) piece
    have released : lessArea y.reserved y.area p = q := rfl
    have settled_q : Settled q := lessArea_settled y.reserved y.area settled
    have piece_q : HoldsPiece y (holding q) := piece.congr (lessArea_rst y.reserved y.area p)
    have leaves {z : Piece} {m : Part} (tag : z.tag = y.tag) (held : HoldsPiece y (holding m)) (settled_m : Settled m)
        (degraded : degrade (if spoiled then .spoiled else .downgrade) y (holding p) = writePiece z (holding m)) :
        answer y.tag result ⟨.done, outcomeItems (some z)⟩ (writePiece z m) := by
      have posted := postOutcome_degrades spoiled belt fresh degraded held tag
      exact request_replies_after (body := serveOutcome y.tag result) rfl running settled_m h (by rw [body result rfl, posted])
        (by rw [body result rfl, posted]; exact holding_after (writePiece z m))
    have same_choice : reserveChoice x (writePiece x (holding q)) = reserveChoice x q := reserveChoice_congr rfl rfl x
    refine ⟨fun grade unattributed => ?_, fun o r grade grade' sure choice order => ?_, fun waste => ?_⟩
    · rw [show fields g none = outcomeItems (some x) from (items x).symm]
      refine leaves rfl piece_q settled_q ?_
      rw [degrade_changed spoiled grade, lessArea_holding, released]
      split
      · rfl
      · next sure => exact reservePiece_none ((unattributed.imp_right fun e => e.resolve_left sure).imp_right same_choice.trans)
    · rw [show fields g (some o) = outcomeItems (some { x with reserved := some o }) from (items { x with reserved := some o }).symm]
      refine leaves (m := q.setOrder o (some { r with reservedArea := r.reservedArea + y.area })) rfl piece_q settled_q ?_
      rw [degrade_changed spoiled grade, lessArea_holding, released, if_neg (by rw [sure]; exact Bool.false_ne_true)]
      exact (reservePiece_some (y := x) (p := writePiece x (holding q)) grade' (same_choice.trans choice) order).trans
        (writePiece_writePiece (x := x) (y := { x with reserved := some o }) (by rfl)
          ((holding q).setOrder o (some { r with reservedArea := r.reservedArea + y.area })))
    · rw [show fields .W y.reserved = outcomeItems (some { y with downgraded := true }) by rw [items, ← waste]]
      exact leaves rfl piece settled (degrade_waste spoiled waste)
  · obtain ⟨r, named, -⟩ := resultOf_le small
    refine still ?_
    rw [serveOutcome_piece (p := holding p) named piece, postOutcome_wrongState past, items]
  · obtain ⟨r, named, -⟩ := resultOf_le small
    refine still ?_
    rw [serveOutcome_piece (p := holding p) named piece, postOutcome_unsorted unsorted, items]
  · refine still ?_
    rw [serveOutcome_piece (p := holding p) rfl piece, postOutcome_assigned assigned, items]
    rfl
  · obtain ⟨r, named, ok⟩ := resultOf_le small
    have body : serveOutcome y.tag n (holding p) = (⟨.late, fields y.grade y.reserved⟩,
        holding (p.setBay b { p.bay b with bundle := some { u with inspect := true } })) := by
      rw [serveOutcome_piece (p := holding p) named piece, postOutcome_assigned assigned, items, if_neg (fun e => nonzero (ok.1 e)), flagInspect, bay]
      dsimp only
      rw [changeBundle, show ((holding p).bay b).bundle = some u from bundle]
      rfl
    exact request_replies_after (body := serveOutcome y.tag n) rfl running settled h (by rw [body]) (by rw [body]; exact holding_after _)
  · obtain ⟨r, named, -⟩ := resultOf_le small
    refine still ?_
    rw [serveOutcome, named]
    dsimp only
    rw [lookup_strip (p := holding p) .lif strip]
    rfl
  · obtain ⟨r, named, -⟩ := resultOf_le small
    refine still ?_
    rw [serveOutcome, named]
    dsimp only
    rw [lookup_stale (p := holding p) .lif clean gone]
    rfl
  · refine still ?_
    rw [serveOutcome, resultOf_above large]
    rfl

end Sys2Proof.Machine

/-! PROOFS. RECRET: a record off the line, with what belongs to it (1.6, 1.9); and what its proof shares with that of condemnation. -/

namespace Sys2Proof.Machine

open Sys2Proof

/-! Retirements and releases among the other operations. -/

theorem retireSlot_ahead (i : SlotNo) (c : Retire) (p : Part) :
    (retireSlot i c p).ort = p.ort ∧ (retireSlot i c p).bas = p.bas ∧ (retireSlot i c p).acu = p.acu
      ∧ ∀ z : Zone, (retireSlot i c p).queue z = p.queue z := by
  unfold retireSlot
  dsimp only
  split
  · exact ⟨rfl, rfl, rfl, fun _ => rfl⟩
  · cases c <;> exact ⟨rfl, rfl, rfl, fun z => by cases z <;> rfl⟩

theorem retireSlot_settled {i : SlotNo} {c : Retire} {p : Part} (h : Settled p) : Settled (retireSlot i c p) :=
  ⟨(retireSlot_atOnce i c p).trans h.1, by rw [retireSlot_links]; exact h.2⟩

theorem retireSlot_cutList (i : SlotNo) (c : Retire) (cuts : List CutEntry) (p : Part) :
    retireSlot i c { p with ztr.cutList := cuts } = { retireSlot i c p with ztr.cutList := cuts } := by
  unfold retireSlot
  dsimp only
  rw [show Part.slot { p with ztr.cutList := cuts } i = p.slot i from rfl]
  split
  · rfl
  · cases c <;> rfl

theorem retireSlot_cuts (i : SlotNo) (c : Retire) (p : Part) : (retireSlot i c p).ztr.cutList = p.ztr.cutList := by
  unfold retireSlot
  dsimp only
  split
  · rfl
  · cases c <;> rfl

theorem gone_lif (z : Zone) (e : Entry) (p : Part) : (gone z e p).lif = p.lif := by
  rcases entryGone_shape z e (p.setQueue z []) with same | ⟨c, cancelled⟩
  · rw [gone, same]; cases z <;> rfl
  · rw [gone, cancelled]; cases z <;> rfl

theorem gone_settled {z : Zone} {e : Entry} {p : Part} (h : Settled p) : Settled (gone z e p) :=
  ⟨gone_atOnce e h.1, by rw [gone_lif]; exact h.2⟩

theorem cancel_settled {e : Event} {p : Part} (h : Settled p) : Settled (cancel e p) := ⟨cancel_atOnce e h.1, h.2⟩

theorem cancel_comm (e f : Event) (p : Part) : cancel e (cancel f p) = cancel f (cancel e p) := by
  simp only [cancel, List.filter_filter, Bool.and_comm]

theorem gone_queue_other {z y : Zone} (h : z ≠ y) (e : Entry) (p : Part) : (gone z e p).queue y = p.queue y := by
  rcases entryGone_shape z e (p.setQueue z []) with same | ⟨c, cancelled⟩
  · rw [gone, same]; exact queue_setQueue_other h p []
  · rw [gone, cancelled]; exact queue_setQueue_other h p []

theorem gone_cutList (z : Zone) (e : Entry) (p : Part) : (gone z e p).ztr.cutList = p.ztr.cutList := by
  rcases entryGone_shape z e (p.setQueue z []) with same | ⟨c, cancelled⟩
  · rw [gone, same]; cases z <;> rfl
  · rw [gone, cancelled]; cases z <;> rfl

theorem gone_lessArea (z : Zone) (e : Entry) (r : Option OrderNo) (area : Nat) (p : Part) :
    gone z e (lessArea r area p) = lessArea r area (gone z e p) := by
  cases r with
  | none => rfl
  | some o =>
    cases z
    case E =>
      unfold gone entryGone
      cases e.tag <;> rfl
    all_goals rfl

theorem gone_writeRecord (z : Zone) (e : Entry) (i : SlotNo) (c : Contents) (p : Part) :
    gone z e (writeRecord i c p) = writeRecord i c (gone z e p) := by
  cases z
  case E =>
    unfold gone entryGone
    cases e.tag <;> rfl
  all_goals rfl

theorem writeRecord_comm {i j : SlotNo} (h : i ≠ j) (c d : Contents) (p : Part) :
    writeRecord j d (writeRecord i c p) = writeRecord i c (writeRecord j d p) := by
  have kept : (writeRecord j d p).slot i = p.slot i := Part.slot_setSlot_other _ _ _ _ (Ne.symm h)
  rw [writeRecord.eq_def i c p, writeRecord_setSlot h, writeRecord.eq_def i c, kept]

theorem release_eq (y : Piece) (p : Part) : release y p = lessArea y.reserved y.area p
    ∨ release y p = writePiece { y with reserved := none } (lessArea y.reserved y.area p) := by
  unfold release lessArea
  cases y.reserved with
  | none => exact .inl rfl
  | some o => exact .inr rfl

theorem gone_release (z : Zone) (e : Entry) (y : Piece) (p : Part) : gone z e (release y p) = release y (gone z e p) := by
  unfold release
  cases y.reserved with
  | none => rfl
  | some o =>
    have lessened := gone_lessArea z e (some o) y.area p
    exact (gone_writeRecord z e _ _ _).trans (congrArg (writePiece { y with reserved := none }) lessened)

/-- A piece released as it is retired: its area leaves the order that it is reserved to. -/
theorem retire_release_after {y : Piece} {p : Part} (cause : PieceRetire) (h : HoldsPiece y p) :
    After (retireSlot (slotOf y.tag) (.piece cause) (lessArea y.reserved y.area p))
      (retire (slotOf y.tag) (.piece cause) (release y p)) := by
  rcases release_eq y p with same | written
  · rw [same]
    exact retire_after _ _ _
  · rw [written]
    exact retire_writePiece_after (y := { y with reserved := none }) cause (h.congr (lessArea_rst _ _ _)) rfl rfl

theorem After.lessArea {p q : Part} (h : After p q) (r : Option OrderNo) (area : Nat) :
    After (lessArea r area p) (Machine.lessArea r area q) := by
  cases r with
  | none => exact h
  | some o => exact h.map (f := Machine.lessArea (some o) area) (fun _ _ _ _ _ _ => rfl) fun _ => rfl

theorem leaveCutList_absent {t : Nat} {p : Part} (h : p.ztr.cutList = []) : leaveCutList t p = p := by
  unfold leaveCutList
  rw [h, List.filter_nil, ← h]

/-- A planned piece ends with its strip. -/
theorem endPiece_planned {y : Piece} {p : Part} (cause : PieceRetire) (h : HoldsPiece y p) (state : y.state = .planned) :
    After (retireSlot (slotOf y.tag) (.piece cause) (lessArea y.reserved y.area p)) (endPiece y cause p) := by
  unfold endPiece
  dsimp only
  rw [if_neg (by rw [state]; exact nofun)]
  exact retire_release_after cause h

/-- A piece of zone C ends with its strip. -/
theorem endPiece_belt {y : Piece} {e : Entry} {p : Part} (cause : PieceRetire) (h : HoldsPiece y p) (state : y.state = .beltC)
    (queue : p.queue .C = [e]) (tag : e.tag = some y.tag) :
    After (retireSlot (slotOf y.tag) (.piece cause) (lessArea y.reserved y.area (gone .C e p))) (endPiece y cause p) := by
  have queue' : (release y p).queue .C = [e] := by
    rcases release_eq y p with same | written
    · rw [same]; cases y.reserved <;> exact queue
    · rw [written]; cases y.reserved <;> exact queue
  unfold endPiece
  dsimp only
  rw [if_pos state, removeTag_lone queue' tag, gone_release]
  exact retire_release_after cause (h.congr (gone_rst _ _ _))

/-! Strips (R29). -/

/-- A strip off its zone, with what belongs to it ended already. -/
theorem removeStrip_lone {x : Strip} {z : Zone} {e : Entry} {m p q : Part} (ended : removeByState x p = (false, q)) (after : After m q)
    (queue : m.queue z = [e]) (tag : e.tag = some x.tag) (zone : z = .A ∧ m.queue .B = [] ∨ z = .B ∧ m.queue .A = [])
    (cuts : m.ztr.cutList = []) :
    (removeStrip x p).1 = false
      ∧ After (retireSlot (slotOf x.tag) (.strip .removed) (gone z e m)) (removeStrip x p).2 := by
  have off : removeTag .B x.tag (removeTag .A x.tag q) = gone z e q := by
    rcases zone with ⟨rfl, empty⟩ | ⟨rfl, empty⟩
    · rw [removeTag_lone ((after.queue .A).trans queue) tag, removeTag_absent]
      rw [gone_queue_other (by decide), after.queue, empty]
      exact nofun
    · rw [removeTag_absent (z := .A), removeTag_lone ((after.queue .B).trans queue) tag]
      rw [after.queue, empty]
      exact nofun
  have cuts' : (gone z e q).ztr.cutList = [] := by rw [gone_cutList, after.1.2.2.1, cuts]
  rw [removeStrip, ended, thenStep, if_neg Bool.false_ne_true]
  dsimp only
  rw [off, leaveCutList_absent cuts']
  exact ⟨rfl, (after.gone z e).retire _ _⟩

theorem cancelSaw_lone {target t : Nat} {p : Part} (saw : p.acu.saw = [⟨target, t⟩]) :
    cancelSaw t p = { cancel (.saw target) p with acu.saw := [] } := by
  have all : p.acu.saw.filter (fun x => x.tag == t) = [⟨target, t⟩] := by simp [saw]
  have rest : p.acu.saw.filter (fun x => x.tag != t) = [] := by simp [saw]
  rw [cancelSaw, all]
  exact congrArg (fun es => { cancel (.saw target) p with acu.saw := es }) rest

/-- A CUTTING strip, its piece of zone C ended with it. -/
theorem removeStrip_cutting {x : Strip} {y : Piece} {pl : PlanEntry} {value target lead : Nat} {e : Entry} {p : Part}
    (state : x.state = .cutting) (plan : x.plan = some ⟨value, [pl]⟩) (place : pl.tag = some y.tag) (h : HoldsPiece y p)
    (belt : y.state = .beltC) (noA : p.queue .A = []) (noB : p.queue .B = []) (queue : p.queue .C = [e]) (tag : e.tag = some y.tag)
    (cuts : p.ztr.cutList = [⟨x.tag, lead⟩]) (saw : p.acu.saw = [⟨target, x.tag⟩]) :
    (removeStrip x p).1 = false
      ∧ After (retireSlot (slotOf x.tag) (.strip .removed) (retireSlot (slotOf y.tag) (.piece .removed) (lessArea y.reserved y.area
        { cancel (.expiry .C) (cancel (.saw target) (p.setQueue .C [])) with ztr.cutList := [], acu.saw := [] }))) (removeStrip x p).2 := by
  let m : Part := { cancel (.saw target) p with acu.saw := [] }
  have stopped : cancelSaw x.tag p = m := cancelSaw_lone saw
  have ended : removeByState x p = (false, endPiece y .removed m) := by
    rw [removeByState, state]
    dsimp only
    rw [stopped, endPieces_single (p := m) .lif .removed plan place h (by rw [belt]; rfl)]
  have left := endPiece_belt (p := m) .removed h belt queue tag
  generalize endPiece y .removed m = q at ended left
  have kept (z : Zone) (other : Zone.C ≠ z) : q.queue z = p.queue z := by
    rw [left.queue, (retireSlot_ahead _ _ _).2.2.2, ← gone_lessArea, gone_queue_other other]
    cases y.reserved <;> rfl
  have off : removeTag .B x.tag (removeTag .A x.tag q) = q := by
    rw [removeTag_absent (z := .A) (by rw [kept .A (by decide), noA]; exact nofun),
      removeTag_absent (by rw [kept .B (by decide), noB]; exact nofun)]
  have cut : leaveCutList x.tag (retireSlot (slotOf y.tag) (.piece .removed) (lessArea y.reserved y.area (gone .C e m))) =
      retireSlot (slotOf y.tag) (.piece .removed) (lessArea y.reserved y.area
        { cancel (.expiry .C) (cancel (.saw target) (p.setQueue .C [])) with ztr.cutList := [], acu.saw := [] }) := by
    have listed : (lessArea y.reserved y.area (gone .C e m)).ztr.cutList = [⟨x.tag, lead⟩] := by
      rw [← gone_lessArea, gone_cutList]
      cases y.reserved <;> exact cuts
    rw [leaveCutList, retireSlot_cuts, listed, ← retireSlot_cutList]
    simp only [List.filter_cons, List.filter_nil, bne_self_eq_false, Bool.false_eq_true, if_false]
    cases y.reserved <;> rfl
  rw [removeStrip, ended, thenStep, if_neg Bool.false_ne_true]
  dsimp only
  rw [off, ← cut]
  exact ⟨rfl, (left.map (f := leaveCutList x.tag) (fun _ _ _ _ _ _ => rfl) fun _ => rfl).retire _ _⟩

/-! Pieces (R30). -/

/-- A piece off its zone, neither ASSIGNED nor PLANNED. -/
theorem removePiece_lone {y : Piece} {z : Zone} {e : Entry} {p : Part} (h : HoldsPiece y p) (assigned : y.state ≠ .assigned)
    (planned : y.state ≠ .planned) (zone : pieceZone y.state = some z) (queue : p.queue z = [e]) (tag : e.tag = some y.tag) :
    (removePiece y p).1 = false
      ∧ After (retireSlot (slotOf y.tag) (.piece .removed) (lessArea y.reserved y.area (gone z e p))) (removePiece y p).2 := by
  have queue' : (release y p).queue z = [e] := by
    rcases release_eq y p with same | written
    · rw [same]; cases y.reserved <;> cases z <;> exact queue
    · rw [written]; cases y.reserved <;> cases z <;> exact queue
  rw [removePiece, undoShare, if_neg assigned, removePieceEntry, zone]
  dsimp only
  rw [if_neg planned, thenStep, if_neg Bool.false_ne_true, removeTag_lone queue' tag, gone_release]
  exact ⟨rfl, retire_release_after .removed (h.congr (gone_rst z e p))⟩

/-- The kick of a lone piece of zone E cancelled, and its entry gone. -/
theorem gone_kickCancelled {t area : Nat} {b : BayNo} {u : Bundle} {r : Order} {e : Entry} {p : Part} (tag : e.tag = some t) :
    gone .E e (kickCancelled t area b u r p) = kickCancelled t area b u r (gone .E e p) := by
  rw [gone_sorted tag, gone_sorted tag]
  have moved : cancel (.expiry .E) (cancel (.sort t) (cancel (.kick b t)
      ((p.setQueue .E []).setKickQueue b ((p.kickQueue b).filter fun k => k.tag != t)))) =
      cancel (.kick b t) (cancel (.expiry .E) (cancel (.sort t)
        ((p.setQueue .E []).setKickQueue b ((p.kickQueue b).filter fun k => k.tag != t)))) := by
    rw [cancel_comm (.sort t), cancel_comm (.expiry .E)]
  exact congrArg (fun q : Part => (q.setBay b { p.bay b with bundle := some { u with transit := u.transit - area } }).setOrder u.slot
    (some { r with transitArea := r.transitArea - area })) moved

theorem removePiece_assigned {y : Piece} {b : BayNo} {u : Bundle} {r : Order} {e : Entry} {p : Part} (assigned : y.state = .assigned)
    (bay : y.bay = some b) (opened : (p.bay b).state = .opened) (bundle : (p.bay b).bundle = some u) (order : p.order u.slot = some r)
    (long : r.shortLength ≤ y.len) (queue : p.queue .E = [e]) (tag : e.tag = some y.tag) :
    (removePiece y p).1 = false
      ∧ After (retireSlot (slotOf y.tag) (.piece .removed) (kickCancelled y.tag y.area b u r (gone .E e p))) (removePiece y p).2 := by
  have queue' : (kickCancelled y.tag y.area b u r p).queue .E = [e] := queue
  rw [removePiece, undoShare, if_pos assigned, cancelKick_opened bay opened bundle order long, removePieceEntry, assigned]
  dsimp only [pieceZone]
  rw [if_neg nofun, thenStep, if_neg Bool.false_ne_true, removeTag_lone queue' tag, gone_kickCancelled tag]
  exact ⟨rfl, retire_after _ _ _⟩

/-- The place of a piece in its parent's plan becomes void; the parent is held in a clean slot. -/
theorem writeVoid_single {x : Strip} {pl : PlanEntry} {value t : Nat} {p : Part} (h : HoldsStrip x p) (plan : x.plan = some ⟨value, [pl]⟩)
    (tag : pl.tag = some t) : writeVoid t x.tag p = writeStrip { x with plan := some ⟨value, [{ pl with tag := none }]⟩ } p := by
  rw [writeVoid, recordAt_strip h]
  dsimp only
  rw [plan]
  simp only [Option.map_some, List.map_cons, List.map_nil, tag, if_true]

theorem voidPlace_single {x : Strip} {pl : PlanEntry} {value t : Nat} {p : Part} (reader : Reader) (except : Option SlotNo)
    (h : HoldsStrip x p) (plan : x.plan = some ⟨value, [pl]⟩) (tag : pl.tag = some t) :
    voidPlace reader t x.tag except p = (false, writeStrip { x with plan := some ⟨value, [{ pl with tag := none }]⟩ } p) := by
  rw [voidPlace, finding_clean h.1]
  dsimp only
  rw [repair_clean reader h.1, writeVoid_single h plan tag]

theorem removePiece_planned {x : Strip} {y : Piece} {pl : PlanEntry} {value : Nat} {p : Part} (state : y.state = .planned)
    (parent : y.parent = x.tag) (h : HoldsPiece y p) (strip : HoldsStrip x p) (other : slotOf y.tag ≠ slotOf x.tag)
    (plan : x.plan = some ⟨value, [pl]⟩) (tag : pl.tag = some y.tag) :
    (removePiece y p).1 = false
      ∧ After (retireSlot (slotOf y.tag) (.piece .removed) (writeStrip { x with plan := some ⟨value, [{ pl with tag := none }]⟩ }
        (lessArea y.reserved y.area p))) (removePiece y p).2 := by
  let x' : Strip := { x with plan := some ⟨value, [{ pl with tag := none }]⟩ }
  let q := lessArea y.reserved y.area p
  have strip_q : HoldsStrip x q := strip.congr (lessArea_rst _ _ _)
  have piece_q : HoldsPiece y (writeStrip x' q) := holdsPiece_setSlot (h.congr (lessArea_rst _ _ _)) (Ne.symm other)
  have voided : voidPlace .lif y.tag x.tag (some (slotOf y.tag)) (release y p) = (false, writeStrip x' (release y p)) := by
    refine voidPlace_single .lif _ ?_ plan tag
    rcases release_eq y p with same | written
    · rw [same]; exact strip_q
    · rw [written]; exact holdsStrip_setSlot strip_q other
  have share : undoShare y p = release y p := if_neg (by rw [state]; decide)
  have entry : removePieceEntry y (release y p) = release y p := by rw [removePieceEntry, state]; rfl
  rw [removePiece, share, entry, if_pos state, parent, voided, thenStep, if_neg Bool.false_ne_true]
  refine ⟨rfl, ?_⟩
  rcases release_eq y p with same | written
  · rw [same]
    exact retire_after _ _ _
  · rw [written]
    have moved : writeStrip x' (writePiece { y with reserved := none } q) = writePiece { y with reserved := none } (writeStrip x' q) :=
      writeRecord_comm other _ _ q
    show After _ (retire _ _ (writeStrip x' (writePiece { y with reserved := none } q)))
    rw [moved]
    exact retire_writePiece_after (y := { y with reserved := none }) .removed piece_q rfl rfl

/-! RECRET taken. -/

theorem serveRecret_strip {x : Strip} {p : Part} (h : HoldsStrip x p) :
    serveRecret x.tag p = (doneUnlessDamaged (removeStrip x p).1 [], (removeStrip x p).2) := by
  rw [serveRecret, lookup_strip .lif h]

theorem serveRecret_piece {y : Piece} {p : Part} (h : HoldsPiece y p) :
    serveRecret y.tag p = (doneUnlessDamaged (removePiece y p).1 [], (removePiece y p).2) := by
  rw [serveRecret, lookup_piece .lif h]

/-- A strip removed without a cleared line is answered DONE. -/
theorem recret_strip {number : Nat} {x : Strip} {s : State} {q : Part} (running : Running s.part) (taken : Takes 0 0x11 s.part)
    (h : HoldsStrip x s.part) (settled : Settled q)
    (removed : (removeStrip x (holding s.part)).1 = false ∧ After q (removeStrip x (holding s.part)).2) :
    Replies (.recret 0 number x.tag) 0 0x11 number s ⟨.done, []⟩ q := by
  have body := serveRecret_strip (p := holding s.part) h
  exact request_replies_after (body := serveRecret x.tag) rfl running settled taken (by rw [body, removed.1]; rfl)
    (by rw [body]; exact removed.2)

theorem recret_piece {number : Nat} {y : Piece} {s : State} {q : Part} (running : Running s.part) (taken : Takes 0 0x11 s.part)
    (h : HoldsPiece y s.part) (settled : Settled q)
    (removed : (removePiece y (holding s.part)).1 = false ∧ After q (removePiece y (holding s.part)).2) :
    Replies (.recret 0 number y.tag) 0 0x11 number s ⟨.done, []⟩ q := by
  have body := serveRecret_piece (p := holding s.part) h
  exact request_replies_after (body := serveRecret y.tag) rfl running settled taken (by rw [body, removed.1]; rfl)
    (by rw [body]; exact removed.2)

/-- Settles O40. -/
theorem recretRemovesRecord : Obligations.RecretRemovesRecord := by
  refine ⟨fun number e s running settled taken => ⟨fun x h mapped noA queue tag cuts => ?_, fun y h state unreserved queue tag => ?_⟩,
    fun number e s running settled taken => ?_⟩
  · have ended : removeByState x (holding s.part) = (false, holding (cancel (.deadline x.tag) (leavePlanner x.tag s.part))) := by
      rw [removeByState, mapped]
      rfl
    have removed := removeStrip_lone (z := .B) (e := e) (m := cancel (.deadline x.tag) (leavePlanner x.tag s.part)) ended (holding_after _) queue tag
      (.inr ⟨rfl, noA⟩) cuts
    exact recret_strip running taken h (retireSlot_settled (gone_settled (e := e) (cancel_settled (p := leavePlanner x.tag s.part) settled))) removed
  · have removed := removePiece_lone (z := .E) (e := e) (p := holding s.part) h (by rw [state]; decide) (by rw [state]; decide)
      (by rw [state]; rfl) queue tag
    rw [unreserved] at removed
    rw [← gone_sorted tag]
    exact recret_piece running taken h (retireSlot_settled (gone_settled settled))
      ⟨removed.1, (((holding_after s.part).gone .E e).retireSlot _ _).trans removed.2⟩
  · intro p less removed
    refine ⟨fun x z h state queue tag noB noA cuts => ?_, fun x y pl value strip piece other plan place noA =>
      ⟨fun planned state queue tag cuts => ?_, fun target lead cutting belt noB queue tag cuts saw => ?_⟩, fun y piece => ?_⟩
    · intro q
      have ended : removeByState x (holding p) = (false, holding q) := by
        simp only [List.mem_cons, Prod.mk.injEq, List.not_mem_nil, or_false] at state
        obtain ⟨at_state, -⟩ | ⟨at_state, -⟩ | ⟨at_state, -⟩ | ⟨at_state, -⟩ | ⟨at_state, -⟩ | ⟨at_state, -⟩ | ⟨at_state, -⟩ := state
        all_goals
          simp only [removeByState, q, at_state, reduceCtorEq, or_self, or_true, true_or, if_true, if_false] <;> rfl
      have blocks : q.queue = p.queue ∧ q.ztr.cutList = p.ztr.cutList ∧ Settled q := by
        by_cases c : x.state = .enteringB ∨ x.state = .scanning ∨ x.state = .planning
        · rw [show q = cancel (.deadline x.tag) p from if_pos c]
          exact ⟨rfl, rfl, cancel_settled settled⟩
        · rw [show q = p from if_neg c]
          exact ⟨rfl, rfl, settled⟩
      obtain ⟨queues, cuts_q, settled_q⟩ := blocks
      have zone : z = .A ∨ z = .B := by
        simp only [List.mem_cons, Prod.mk.injEq, List.not_mem_nil, or_false] at state
        tauto
      have off : gone z e q = cancel (.expiry z) (q.setQueue z []) := by rcases zone with rfl | rfl <;> rfl
      rw [← off]
      refine recret_strip running taken h (retireSlot_settled (gone_settled settled_q)) (removeStrip_lone ended (holding_after q)
        (by rw [queues]; exact queue) tag (zone.imp (fun e => ⟨e, ?_⟩) fun e => ⟨e, ?_⟩) (cuts_q.trans cuts))
      · rw [queues]; exact noB e
      · rw [queues]; exact noA e
    · have ended : removeByState x (holding p) = (false, endPiece y .removed (holding p)) := by
        rw [removeByState, planned]
        exact endPieces_single (p := holding p) .lif .removed plan place piece (by rw [state]; rfl)
      have left := (((holding_after p).lessArea y.reserved y.area).retireSlot (slotOf y.tag) (.piece .removed)).trans
        (endPiece_planned (p := holding p) .removed piece state)
      have queues (z : Zone) : (retireSlot (slotOf y.tag) (.piece .removed) (lessArea y.reserved y.area p)).queue z = p.queue z := by
        rw [(retireSlot_ahead _ _ _).2.2.2]
        cases y.reserved <;> rfl
      have cuts' : (retireSlot (slotOf y.tag) (.piece .removed) (lessArea y.reserved y.area p)).ztr.cutList = [] := by
        rw [retireSlot_cuts]
        cases y.reserved <;> exact cuts
      exact recret_strip running taken strip (retireSlot_settled (gone_settled (e := e) (retireSlot_settled (lessArea_settled _ _ settled))))
        (removeStrip_lone ended left ((queues .B).trans queue) tag (.inr ⟨rfl, (queues .A).trans noA⟩) cuts')
    · intro q
      have out := removeStrip_cutting (p := holding p) cutting plan place piece belt noA noB queue tag cuts saw
      have settled_q : Settled { q with ztr.cutList := [], acu.saw := [] } :=
        cancel_settled (cancel_settled (p := p.setQueue .C []) settled)
      exact recret_strip running taken strip (retireSlot_settled (retireSlot_settled (lessArea_settled y.reserved y.area settled_q)))
        ⟨out.1, (((((holding_after { q with ztr.cutList := [], acu.saw := [] })).lessArea y.reserved y.area).retireSlot _ _).retireSlot _ _).trans
          out.2⟩
    · intro off retired
      refine ⟨fun z state queue tag => ?_, fun b u r assigned bay queue tag opened bundle order long => ?_,
        fun x pl value planned parent strip other plan place => ?_⟩
      · have kept : y.state ≠ .assigned ∧ y.state ≠ .planned ∧ pieceZone y.state = some z := by
          simp only [List.mem_cons, Prod.mk.injEq, List.not_mem_nil, or_false] at state
          obtain ⟨at_state, rfl⟩ | ⟨at_state, rfl⟩ | ⟨at_state, rfl⟩ := state
          all_goals
            rw [at_state]
            decide
        obtain ⟨assigned, planned, zone⟩ := kept
        have out := removePiece_lone (p := holding p) piece assigned planned zone (by cases z <;> exact queue) tag
        exact recret_piece running taken piece (retireSlot_settled (lessArea_settled y.reserved y.area (gone_settled settled)))
          ⟨out.1, ((((holding_after p).gone z e).lessArea y.reserved y.area).retireSlot _ _).trans out.2⟩
      · have out := removePiece_assigned (p := holding p) assigned bay opened bundle order long queue tag
        obtain ⟨-, bas, acu, -⟩ := gone_setQueue (z := .E) e p
        have kicks : (gone .E e p).kickQueue b = p.kickQueue b := by rw [Part.kickQueue, acu]; rfl
        have bay_eq : (gone .E e p).bay b = p.bay b := baysOf_blocks bas b
        have whole : kickCancelled y.tag y.area b u r (gone .E e p) = ((cancel (.kick b y.tag) ((off .E).setKickQueue b ((p.kickQueue b).filter
            fun k => k.tag != y.tag))).setBay b { p.bay b with bundle := some { u with transit := u.transit - y.area } }).setOrder u.slot
            (some { r with transitArea := r.transitArea - y.area }) := by
          rw [kickCancelled, kicks, bay_eq, show gone .E e p = off .E from rfl]
        have settled_off : Settled (kickCancelled y.tag y.area b u r (gone .E e p)) :=
          cancel_settled (p := (gone .E e p).setKickQueue b _) (gone_settled settled)
        have behind : After (kickCancelled y.tag y.area b u r (gone .E e p)) (kickCancelled y.tag y.area b u r (gone .E e (holding p))) :=
          ((holding_after p).gone .E e).map (f := kickCancelled y.tag y.area b u r) (fun _ _ _ _ _ _ => rfl) fun _ => rfl
        rw [← whole]
        exact recret_piece running taken piece (retireSlot_settled settled_off) ⟨out.1, (behind.retireSlot _ _).trans out.2⟩
      · have out := removePiece_planned (p := holding p) planned parent piece strip other plan place
        have settled_q : Settled (writeStrip { x with plan := some ⟨value, [{ pl with tag := none }]⟩ } (lessArea y.reserved y.area p)) :=
          lessArea_settled y.reserved y.area settled
        have behind : After (writeStrip { x with plan := some ⟨value, [{ pl with tag := none }]⟩ } (lessArea y.reserved y.area p))
            (writeStrip { x with plan := some ⟨value, [{ pl with tag := none }]⟩ } (lessArea y.reserved y.area (holding p))) :=
          ((holding_after p).lessArea y.reserved y.area).map (f := writeStrip { x with plan := some ⟨value, [{ pl with tag := none }]⟩ })
            (fun _ _ _ _ _ _ => rfl) fun _ => rfl
        exact recret_piece running taken piece (retireSlot_settled settled_q) ⟨out.1, (behind.retireSlot _ _).trans out.2⟩

end Sys2Proof.Machine

/-! PROOFS. A LINE CLEAR, block by block (1.8, 2.10, 9.9), from whatever state. -/

namespace Sys2Proof.Machine

open Sys2Proof

/-! Notices and counts touch the Link Interface alone. -/

theorem compose_lif (n : Notice) (p : Part) : compose n p = { p with lif := (compose n p).lif } := by
  unfold compose sendNotice transmit
  split
  · rfl
  · dsimp only
    split <;> rfl

theorem compose_clear (n : Notice) (p : Part) : (compose n p).lif.clear = p.lif.clear := by
  unfold compose sendNotice transmit
  split
  · rfl
  · dsimp only
    split <;> rfl

/-! Bays re-evaluated (R185, R191). -/

/-- What changes as bays are re-evaluated: bays, and frames, counts and notices held back of the Link Interface. -/
structure BayWork (p q : Part) : Prop where
  blocks : q = { p with bas := q.bas, lif := q.lif }
  requests : ∀ l : LinkNo, (q.link l).requests = (p.link l).requests
  clear : q.lif.clear = p.lif.clear

theorem BayWork.refl (p : Part) : BayWork p p := ⟨rfl, fun _ => rfl, rfl⟩

theorem BayWork.trans {p q r : Part} (h : BayWork p q) (k : BayWork q r) : BayWork p r := by
  refine ⟨?_, fun l => (k.requests l).trans (h.requests l), k.clear.trans h.clear⟩
  have e := k.blocks
  rw [h.blocks] at e
  exact e

theorem compose_work (n : Notice) (p : Part) : BayWork p (compose n p) :=
  ⟨by rw [compose_lif], compose_requests n p, compose_clear n p⟩

theorem raise_work (n : Notice) (p : Part) : BayWork p (raise n p) := by
  unfold raise
  split
  · exact compose_work n p
  · exact ⟨rfl, fun _ => rfl, rfl⟩

theorem countEvent_work (k : Countable) (p : Part) : BayWork p (countEvent k p) := by
  unfold countEvent
  split
  · split
    · exact compose_work _ p
    · exact ⟨rfl, fun _ => rfl, rfl⟩
  · exact ⟨rfl, fun _ => rfl, rfl⟩

theorem raise_bas (n : Notice) (p : Part) : (raise n p).bas = p.bas := by
  unfold raise
  split
  · rw [compose_lif]
  · rfl

theorem countEvent_bas (k : Countable) (p : Part) : (countEvent k p).bas = p.bas := by
  unfold countEvent
  split
  · split
    · rw [cntntc, compose_lif]
    · rfl
  · rfl

/-- The record of a bay after its re-evaluation. -/
def evaluated (b : BayNo) (order : OrderNo → Option Order) (x : Bay) : Bay :=
  if x.state = .closing then
    match x.bundle with
    | none => x
    | some u =>
      match order u.slot with
      | none => x
      | some r =>
        match closingOutcome u r with
        | .stay => x
        | .reopen => { x with state := .opened }
        | .fill =>
          let y := { u with short := u.short || decide (u.landed < r.target) }
          { x with state := .full, bundle := some { y with label := some (makeLabel b y r) } }
  else x

theorem evaluated_idle {b : BayNo} {order : OrderNo → Option Order} {x : Bay} (h : x.state ≠ .closing) : evaluated b order x = x := by
  rw [evaluated, if_neg h]

theorem evaluated_outcome {b : BayNo} {order : OrderNo → Option Order} {x : Bay} {u : Bundle} {r : Order} (closing : x.state = .closing)
    (bundle : x.bundle = some u) (named : order u.slot = some r) : evaluated b order x =
      match closingOutcome u r with
      | .stay => x
      | .reopen => { x with state := .opened }
      | .fill =>
        let y := { u with short := u.short || decide (u.landed < r.target) }
        { x with state := .full, bundle := some { y with label := some (makeLabel b y r) } } := by
  obtain ⟨state, sup, sta, held⟩ := x
  subst closing bundle
  simp only [evaluated, named, if_true]

theorem reevalClosing_work (b : BayNo) (p : Part) :
    BayWork p (reevalClosing b p) ∧ ∀ c : BayNo, (reevalClosing b p).bay c = if b = c then evaluated b p.order (p.bay c) else p.bay c := by
  have same (h : evaluated b p.order (p.bay b) = p.bay b) (c : BayNo) :
      p.bay c = if b = c then evaluated b p.order (p.bay c) else p.bay c := by
    split
    · next e => subst e; exact h.symm
    · rfl
  have set {w : Bay} (h : evaluated b p.order (p.bay b) = w) (c : BayNo) :
      (p.setBay b w).bay c = if b = c then evaluated b p.order (p.bay c) else p.bay c := by
    rw [bay_setBay]
    split
    · next e => subst e; exact h.symm
    · rfl
  by_cases closing : (p.bay b).state = .closing
  · cases bundle : (p.bay b).bundle with
    | none =>
      rw [reevalClosing, if_pos closing, bundle]
      exact ⟨.refl p, same (by rw [evaluated, if_pos closing, bundle])⟩
    | some u =>
      cases order : p.order u.slot with
      | none =>
        rw [reevalClosing, if_pos closing, bundle]
        dsimp only
        rw [order]
        refine ⟨.refl p, same ?_⟩
        rw [evaluated, if_pos closing, bundle]
        dsimp only
        rw [order]
      | some r =>
        have shown := evaluated_outcome (b := b) closing bundle order
        rw [reevalClosing_outcome closing bundle order]
        cases outcome : closingOutcome u r with
        | stay => exact ⟨.refl p, same (by rw [shown, outcome])⟩
        | reopen => exact ⟨⟨rfl, fun _ => rfl, rfl⟩, set (by rw [shown, outcome])⟩
        | fill =>
          dsimp only
          rw [enterFull_eq bundle order]
          have work : BayWork p (filled b u r p) := ⟨rfl, fun _ => rfl, rfl⟩
          refine ⟨((work.trans (raise_work _ _)).trans (raise_work _ _)).trans (countEvent_work _ _), fun c => ?_⟩
          rw [baysOf_blocks (p := filled b u r p) (by rw [countEvent_bas, raise_bas, raise_bas])]
          exact set (by rw [shown, outcome]) c
  · rw [reevalClosing_idle closing]
    exact ⟨.refl p, same (by rw [evaluated, if_neg closing])⟩

theorem BayWork.order {p q : Part} (h : BayWork p q) : q.order = p.order := by
  rw [h.blocks]
  rfl

/-- Every bay of a list without repeats is re-evaluated once, whatever the others come to. -/
theorem reevalClosing_fold {bs : List BayNo} (once : bs.Nodup) (p : Part) :
    BayWork p (bs.foldl (fun q b => reevalClosing b q) p)
      ∧ ∀ c : BayNo, (bs.foldl (fun q b => reevalClosing b q) p).bay c = if c ∈ bs then evaluated c p.order (p.bay c) else p.bay c := by
  induction bs generalizing p with
  | nil => exact ⟨.refl p, fun c => by rw [if_neg List.not_mem_nil]; rfl⟩
  | cons b bs ih =>
    obtain ⟨fresh, once⟩ := List.nodup_cons.1 once
    obtain ⟨first, bay⟩ := reevalClosing_work b p
    obtain ⟨rest, bays⟩ := ih once (reevalClosing b p)
    refine ⟨first.trans rest, fun c => ?_⟩
    rw [List.foldl_cons, bays, bay, first.order]
    by_cases here : b = c
    · subst here
      simp [fresh]
    · simp [here, Ne.symm here]

/-! The Record Store's part touches records, references and the notices of damage. -/

/-- What changes as the Record Store carries out its part. -/
structure StoreWork (p q : Part) : Prop where
  reset : q.inReset = p.inReset
  tracker : q.ztr = { p.ztr with itemA := q.ztr.itemA, itemB := q.ztr.itemB }
  items : p.ztr.itemA = .none ∧ p.ztr.itemB = .none → q.ztr.itemA = .none ∧ q.ztr.itemB = .none
  actions : q.acu = p.acu
  orders : q.ort = p.ort
  bays : q.bas = p.bas
  planner : q.cpl = { p.cpl with contexts := q.cpl.contexts }
  contexts : ∀ c : CtxNo, q.ctx c = { p.ctx c with refs := (q.ctx c).refs }
  requests : ∀ l : LinkNo, (q.link l).requests = (p.link l).requests
  deferred : q.lif.deferred = p.lif.deferred
  scrub : q.rst.scrubPtr = p.rst.scrubPtr
  capture : ∀ k : Capture, p.rst.capture = some k → q.rst.capture = some k
  clear : ∀ c : Clear, p.lif.clear = some c → ∃ d, q.lif.clear = some d ∧ (c.auto = true → d.auto = true)

theorem StoreWork.refl (p : Part) : StoreWork p p :=
  ⟨rfl, rfl, id, rfl, rfl, rfl, rfl, fun _ => rfl, fun _ => rfl, rfl, rfl, fun _ => id, fun c h => ⟨c, h, id⟩⟩

theorem StoreWork.trans {p q r : Part} (h : StoreWork p q) (k : StoreWork q r) : StoreWork p r where
  reset := k.reset.trans h.reset
  tracker := by
    have e := k.tracker
    rw [h.tracker] at e
    exact e
  items e := k.items (h.items e)
  actions := k.actions.trans h.actions
  orders := k.orders.trans h.orders
  bays := k.bays.trans h.bays
  planner := by
    have e := k.planner
    rw [h.planner] at e
    exact e
  contexts c := by
    have e := k.contexts c
    rw [h.contexts c] at e
    exact e
  requests l := (k.requests l).trans (h.requests l)
  deferred := k.deferred.trans h.deferred
  scrub := k.scrub.trans h.scrub
  capture c e := k.capture c (h.capture c e)
  clear c e := by
    obtain ⟨d, found, auto⟩ := h.clear c e
    obtain ⟨d', found', auto'⟩ := k.clear d found
    exact ⟨d', found', auto' ∘ auto⟩

theorem StoreWork.ite {c : Prop} [Decidable c] {p q r : Part} (h : StoreWork p q) (k : StoreWork p r) : StoreWork p (if c then q else r) := by
  split
  · exact h
  · exact k

/-- Work on slots, counters and capture alone. -/
theorem StoreWork.of_rst {p : Part} (r : Store) (scrub : r.scrubPtr = p.rst.scrubPtr)
    (capture : ∀ k : Capture, p.rst.capture = some k → r.capture = some k) : StoreWork p { p with rst := r } :=
  ⟨rfl, rfl, id, rfl, rfl, rfl, rfl, fun _ => rfl, fun _ => rfl, rfl, scrub, capture, fun c h => ⟨c, h, id⟩⟩

theorem dropItem_none (t : Nat) : dropItem t .none = .none := rfl

theorem retireSlot_work (i : SlotNo) (c : Retire) (p : Part) : StoreWork p (retireSlot i c p) := by
  cases h : shadowCtx (shadowView (p.slot i)) with
  | none => rw [retireSlot_free c h]; exact .refl p
  | some d =>
    obtain ⟨a, b, e⟩ := countRetire_shape c (p.setSlot i (rewritten (genView (p.slot i)) .nothing))
    simp only [retireSlot, h, e]
    refine ⟨rfl, rfl, fun none => ?_, rfl, rfl, rfl, rfl, fun k => ?_, fun _ => rfl, rfl, rfl, fun _ => id, fun c h => ⟨c, h, id⟩⟩
    · exact ⟨(congrArg _ none.1).trans (dropItem_none _), (congrArg _ none.2).trans (dropItem_none _)⟩
    · by_cases here : d = k
      · subst here
        simp [changeRefs, Part.ctx, Part.setCtx, Part.setSlot]
      · have ne : (d : Nat) ≠ k := fun e => here (Fin.ext e)
        simp [changeRefs, Part.ctx, Part.setCtx, Part.setSlot, ne]

theorem takeCapture_work (k : CaptureKind) (i : SlotNo) (t : Nat) (r : Reader) (p : Part) : StoreWork p (takeCapture k i t r p) := by
  unfold takeCapture
  split
  · next empty => exact .of_rst _ rfl fun c h => by rw [empty] at h; cases h
  · exact .of_rst _ rfl fun _ h => h

theorem repair_work (i : SlotNo) (r : Reader) (p : Part) : StoreWork p (repair i r p) := by
  have written (x : Slot) : StoreWork p (p.setSlot i x) := .of_rst _ rfl fun _ h => h
  have counted (q : Part) (n : Nat) : StoreWork q { q with rst.corrected := n } := .of_rst _ rfl fun _ h => h
  have rebuilt (q : Part) (n : Nat) : StoreWork q { q with rst.shadowed := n } := .of_rst _ rfl fun _ h => h
  have corrected {c : Prop} [Decidable c] {x : Slot} {n : Nat} :
      StoreWork p (if c then { p.setSlot i x with rst.corrected := n } else p.setSlot i x) :=
    .ite ((written _).trans (counted _ _)) (written _)
  exact .ite (.refl p) (.ite ((corrected.trans (rebuilt _ _)).trans (takeCapture_work _ _ _ _ _))
    (.ite (corrected.trans (takeCapture_work _ _ _ _ _)) corrected))

theorem compose_storeWork (n : Notice) (p : Part) : StoreWork p (compose n p) := by
  have clear := compose_clear n p
  have deferred := compose_deferred n p
  have requests := compose_requests n p
  generalize shape : compose n p = q at clear deferred requests ⊢
  rw [compose_lif] at shape
  subst shape
  exact ⟨rfl, rfl, id, rfl, rfl, rfl, rfl, fun _ => rfl, requests, deferred, rfl, fun _ => id, fun c h => ⟨c, clear.trans h, id⟩⟩

theorem noteDamage_work (k : CaptureKind) (i : SlotNo) (r : Reader) (p : Part) : StoreWork p (noteDamage k i r p) := by
  have counted (q : Part) (n : Nat) : StoreWork q { q with rst.damaged := n } := .of_rst _ rfl fun _ h => h
  exact ((takeCapture_work _ _ _ _ _).trans (counted _ _)).trans (compose_storeWork _ _)

theorem makeAutomatic_work (p : Part) : StoreWork p (makeAutomatic p) :=
  ⟨rfl, rfl, id, rfl, rfl, rfl, rfl, fun _ => rfl, fun _ => rfl, rfl, rfl, fun _ => id,
    fun c h => ⟨{ c with auto := true }, by rw [makeAutomatic, h]; rfl, fun _ => rfl⟩⟩

theorem retireCleared_work (i : SlotNo) (p : Part) : StoreWork p (retireCleared i p) := by
  unfold retireCleared
  split
  · exact retireSlot_work _ _ _
  · exact retireSlot_work _ _ _
  · exact .of_rst _ rfl fun _ h => h

theorem clearSlot_work (own : Option SlotNo) (p : Part) (i : SlotNo) : StoreWork p (clearSlot own p i) := by
  unfold clearSlot
  split
  · exact (repair_work _ _ _).trans (retireCleared_work _ _)
  · exact .refl p
  · exact (noteDamage_work _ _ _ _).trans (retireCleared_work _ _)
  · split
    · exact retireCleared_work _ _
    · exact ((noteDamage_work _ _ _ _).trans (makeAutomatic_work _)).trans (retireCleared_work _ _)

theorem clearStore_work (own : Option SlotNo) (p : Part) : StoreWork p (clearStore own p) :=
  foldl_within StoreWork.refl StoreWork.trans (clearSlot_work own) _ p

theorem rewriteEvery_work (p : Part) : StoreWork p (rewriteEvery p) := by
  unfold rewriteEvery
  split
  · exact .of_rst _ rfl fun _ h => h
  · exact .refl p

theorem clearRefs_work (p : Part) : StoreWork p (clearRefs p) :=
  ⟨rfl, rfl, id, rfl, rfl, rfl, rfl, fun c => by simp [clearRefs, Part.ctx], fun _ => rfl, rfl, rfl, fun _ => id, fun c h => ⟨c, h, id⟩⟩

end Sys2Proof.Machine

/-! PROOFS. LINCLR: what a LINE CLEAR leaves in every block (1.8, 2.10, 3.7, 4.7, 6.9, 8.8, 9.9). -/

namespace Sys2Proof.Machine

open Sys2Proof

/-! The bays' part (R191). -/

/-- A bay whose bundle has nothing in transit. -/
def stilled (x : Bay) : Bay := { x with bundle := x.bundle.map fun u => { u with transit := 0, shortTransit := 0 } }

/-- What a part looks like as the bays have carried out their part: blocks, waiting requests, and the clear under way. -/
structure BaysCleared (p q : Part) : Prop where
  blocks : q = { p with bas := q.bas, lif := q.lif }
  bays : ∀ b : BayNo, q.bay b = evaluated b p.order (stilled (p.bay b))
  requests : ∀ l : LinkNo, (q.link l).requests = (p.link l).requests
  deferred : q.lif.deferred = p.lif.deferred
  clear : ∀ c : Clear, p.lif.clear = some c → ∃ d, q.lif.clear = some d ∧ d.auto = c.auto

theorem BaysCleared.same {p q : Part} (h : BaysCleared p q) : q.inReset = p.inReset ∧ q.rst = p.rst ∧ q.ztr = p.ztr ∧ q.acu = p.acu
    ∧ q.ort = p.ort ∧ q.cpl = p.cpl := by
  rw [h.blocks]
  exact ⟨rfl, rfl, rfl, rfl, rfl, rfl⟩

theorem clearBays_cleared (p : Part) : BaysCleared p (clearBays p) := by
  unfold clearBays
  extract_lets saved links m q links'
  have still (b : BayNo) : m.bay b = stilled (p.bay b) := by simp [m, Part.bay, stilled]
  have folded : BayWork m q ∧ ∀ c : BayNo, q.bay c = if c ∈ List.finRange 8 then evaluated c m.order (m.bay c) else m.bay c :=
    reevalClosing_fold (List.nodup_finRange 8) m
  clear_value q
  obtain ⟨⟨blocks, requests, clear⟩, bays⟩ := folded
  refine ⟨?_, fun b => ?_, fun l => requests l, rfl, fun c h => ?_⟩
  · rw [blocks]
  · have evaluated_b := bays b
    rw [if_pos (List.mem_finRange b), still] at evaluated_b
    exact evaluated_b
  · exact ⟨{ c with ready := c.ready ++ q.lif.deferred.getD [] }, congrArg (Option.map _) (clear.trans h), rfl⟩

/-- A stilled bay, evaluated, has nothing in transit. -/
theorem evaluated_stilled {b : BayNo} {order : OrderNo → Option Order} {x : Bay} {u : Bundle}
    (h : (evaluated b order (stilled x)).bundle = some u) : u.transit = 0 ∧ u.shortTransit = 0 := by
  have still {w : Bundle} (k : (stilled x).bundle = some w) : w.transit = 0 ∧ w.shortTransit = 0 := by
    obtain ⟨v, -, rfl⟩ := Option.map_eq_some_iff.1 k
    exact ⟨rfl, rfl⟩
  by_cases closing : (stilled x).state = .closing
  · cases bundle : (stilled x).bundle with
    | none => rw [evaluated, if_pos closing, bundle] at h; exact still h
    | some w =>
      cases named : order w.slot with
      | none =>
        rw [evaluated, if_pos closing, bundle] at h
        dsimp only at h
        rw [named] at h
        exact still h
      | some r =>
        rw [evaluated_outcome closing bundle named] at h
        cases outcome : closingOutcome w r with
        | stay => rw [outcome] at h; exact still h
        | reopen => rw [outcome] at h; exact still h
        | fill =>
          rw [outcome] at h
          obtain ⟨transit, short⟩ := still bundle
          obtain rfl := Option.some.inj h
          exact ⟨transit, short⟩
  · rw [evaluated_idle closing] at h
    exact still h

/-! The whole LINE CLEAR. -/

/-- What a LINE CLEAR leaves, but for the slots. -/
structure LineWork (own : Option SlotNo) (p q : Part) : Prop where
  reset : q.inReset = p.inReset
  tracker : q.ztr = (clearTracker p).ztr
  actions : q.acu = (clearActions p).acu
  planner : q.cpl = { (clearPlanner p).cpl with contexts := q.cpl.contexts }
  contexts : ∀ c : CtxNo, q.ctx c = { p.ctx c with refs := 0 }
  orders : q.ort = (clearOrders p).ort
  bays : ∀ b : BayNo, q.bay b = evaluated b (clearOrders p).order (stilled (p.bay b))
  requests : ∀ l : LinkNo, (q.link l).requests = (p.link l).requests
  deferred : q.lif.deferred = p.lif.deferred
  scrub : q.rst.scrubPtr = p.rst.scrubPtr
  capture : ∀ k : Capture, p.rst.capture = some k → q.rst.capture = some k
  clear : ∃ c, q.lif.clear = some c ∧ (own.isSome = true → c.auto = true)

theorem startClear_clear (auto : Bool) (reply : Option Nat) (p : Part) :
    ∃ c, (startClear auto reply p).lif.clear = some c ∧ (auto = true → c.auto = true)
      ∧ (p.lif.clear = none → c.auto = auto) := by
  unfold startClear
  cases h : p.lif.clear with
  | none => exact ⟨_, rfl, id, fun _ => rfl⟩
  | some c => exact ⟨_, rfl, fun auto => by simp [auto], nofun⟩

/-- The blocks before the bays and the Record Store as a LINE CLEAR leaves them. -/
def queuesCleared (own : Option SlotNo) (reply : Option Nat) (p : Part) : Part :=
  clearOrders (clearPlanner (clearActions (clearTracker (startClear own.isSome reply p))))

theorem lineClear_eq (own : Option SlotNo) (reply : Option Nat) (p : Part) :
    lineClear own reply p = clearRefs (rewriteEvery (clearStore own (clearBays (queuesCleared own reply p)))) := rfl

theorem clearTracker_eq (p : Part) : clearTracker p = { p with ztr := (clearTracker p).ztr } := rfl

theorem clearTracker_congr {p q : Part} (h : q.ztr = p.ztr) : (clearTracker q).ztr = (clearTracker p).ztr := by
  simp only [clearTracker, Part.setQueue, Part.setZone, Part.zone, h]

theorem queuesCleared_blocks (own : Option SlotNo) (reply : Option Nat) (p : Part) :
    (queuesCleared own reply p).inReset = p.inReset ∧ (queuesCleared own reply p).rst = p.rst
      ∧ (queuesCleared own reply p).ztr = (clearTracker p).ztr ∧ (queuesCleared own reply p).acu = (clearActions p).acu
      ∧ (queuesCleared own reply p).ort = (clearOrders p).ort ∧ (queuesCleared own reply p).cpl = (clearPlanner p).cpl
      ∧ (queuesCleared own reply p).bas = p.bas ∧ (queuesCleared own reply p).lif = (startClear own.isSome reply p).lif := by
  have tracker : (clearTracker (startClear own.isSome reply p)).ztr = (clearTracker p).ztr := clearTracker_congr rfl
  rw [queuesCleared, clearTracker_eq, tracker]
  generalize (clearTracker p).ztr = t
  exact ⟨rfl, rfl, rfl, rfl, rfl, rfl, rfl, rfl⟩

theorem lineClear_work (own : Option SlotNo) (reply : Option Nat) (p : Part) : LineWork own p (lineClear own reply p) := by
  have started := startClear_clear own.isSome reply p
  have frames : (startClear own.isSome reply p).lif.link = p.lif.link ∧ (startClear own.isSome reply p).lif.deferred = p.lif.deferred :=
    ⟨rfl, rfl⟩
  have refs (c : CtxNo) : ((lineClear own reply p).ctx c).refs = 0 := clearRefs_refs _ c
  obtain ⟨reset', rst', ztr', acu', ort', cpl', bas', lif'⟩ := queuesCleared_blocks own reply p
  have cleared := clearBays_cleared (queuesCleared own reply p)
  rw [lineClear_eq] at refs ⊢
  generalize queuesCleared own reply p = m at *
  have store := ((clearStore_work own (clearBays m)).trans (rewriteEvery_work _)).trans (clearRefs_work _)
  generalize clearBays m = n at *
  generalize clearRefs (rewriteEvery (clearStore own n)) = q at *
  rw [← lif'] at started frames
  obtain ⟨reset, rst, ztr, acu, ort, cpl⟩ := cleared.same
  have contexts (c : CtxNo) : n.ctx c = p.ctx c := by rw [Part.ctx, cpl, cpl']; rfl
  have bay (b : BayNo) : m.bay b = p.bay b := by rw [Part.bay, bas']; rfl
  have order : m.order = (clearOrders p).order := by funext o; rw [Part.order, ort']; rfl
  have link (l : LinkNo) : m.link l = p.link l := by rw [Part.link, frames.1]; rfl
  refine ⟨store.reset.trans (reset.trans reset'), ?_, store.actions.trans (acu.trans acu'), ?_, fun c => ?_,
    store.orders.trans (ort.trans ort'), fun b => ?_, fun l => ?_, store.deferred.trans (cleared.deferred.trans frames.2),
    store.scrub.trans (by rw [rst, rst']), fun k h => store.capture k (by rw [rst, rst']; exact h), ?_⟩
  · obtain ⟨itemA, itemB⟩ := store.items (by rw [ztr, ztr']; exact ⟨rfl, rfl⟩)
    rw [store.tracker, itemA, itemB, ztr, ztr']
    rfl
  · rw [store.planner, cpl, cpl']
  · rw [store.contexts c, refs c, contexts c]
  · rw [baysOf_blocks store.bays, cleared.bays, bay, order]
  · rw [store.requests, cleared.requests, link]
  · obtain ⟨c, found, auto, -⟩ := started
    obtain ⟨d, found', same⟩ := cleared.clear c found
    obtain ⟨e, found'', auto'⟩ := store.clear d found'
    exact ⟨e, found'', fun h => auto' (same.trans (auto h))⟩

/-- A LINE CLEAR leaves every block cleared where the laws of the store hold. -/
theorem lineClear_cleared {p : Part} (w : StoreLaws p) (own : Option SlotNo) (reply : Option Nat) : LineCleared (lineClear own reply p) := by
  have work := lineClear_work own reply p
  obtain ⟨laws, empty⟩ := w.lineClear_empties own reply
  generalize lineClear own reply p = q at work laws empty
  refine ⟨fun z => ?_, ?_, ?_, ?_, fun i => ⟨empty i, (laws.freeSlots i).2 (empty i)⟩, fun c => by rw [work.contexts c], fun o r h => ?_,
    fun b u h => evaluated_stilled (by rw [← work.bays b]; exact h)⟩
  · have queues : ∀ z, (clearTracker p).queue z = [] := fun z => by cases z <;> rfl
    rw [← queues z]
    cases z <;> simp only [Part.queue, Part.zone, work.tracker]
  · rw [work.tracker]
    exact ⟨rfl, rfl, rfl, rfl⟩
  · rw [work.planner]
    refine ⟨rfl, fun j h => ?_⟩
    obtain ⟨k, -, rfl⟩ := Option.map_eq_some_iff.1 h
    rfl
  · simp only [Part.kickQueue, work.actions]
    exact ⟨rfl, rfl, rfl, fun b => by simp [clearActions]⟩
  · have slot : q.order o = (clearOrders p).order o := by rw [Part.order, work.orders]; rfl
    rw [slot] at h
    have mapped : (clearOrders p).order o = (p.order o).map fun x => { x with reservedArea := 0, transitArea := 0 } := by
      simp [clearOrders, Part.order]
    rw [mapped] at h
    obtain ⟨k, -, rfl⟩ := Option.map_eq_some_iff.1 h
    exact ⟨rfl, rfl⟩

/-! Clean slots (R27). -/

theorem CleanSlot.slot_eq {i : SlotNo} {p : Part} (h : CleanSlot i p) : p.slot i = rewritten (p.slot i).gen (p.slot i).contents := by
  obtain ⟨check, parity, shadow⟩ := h
  generalize p.slot i = x at check parity shadow ⊢
  cases x
  dsimp only at check parity shadow ⊢
  rw [check, parity, shadow, rewritten]

theorem clearSlot_clean {own : Option SlotNo} {i : SlotNo} {p : Part} (clean : CleanSlot i p) (live : (p.slot i).contents ≠ .nothing) :
    ∃ cause c, shadowCtx (shadowView (p.slot i)) = some c ∧ clearSlot own p i = retireSlot i cause p := by
  rw [clearSlot, finding_clean clean]
  dsimp only
  rw [repair_clean .rst clean, retireCleared, shadowView_clean clean]
  cases h : (p.slot i).contents with
  | nothing => exact absurd h live
  | strip s => exact ⟨_, s.ctx, rfl, rfl⟩
  | piece x => exact ⟨_, x.ctx, rfl, rfl⟩

/-- Clean live slots, retired one after the other. -/
theorem clearSlots_clean (own : Option SlotNo) {is : List SlotNo} (once : is.Nodup) {p : Part}
    (clean : ∀ i ∈ is, CleanSlot i p ∧ (p.slot i).contents ≠ .nothing) :
    (∀ j, (is.foldl (clearSlot own) p).slot j = if j ∈ is then rewritten (p.slot j).gen .nothing else p.slot j)
      ∧ (∀ j, j ∈ (is.foldl (clearSlot own) p).rst.free ↔ j ∈ p.rst.free ∨ j ∈ is) ∧ (is.foldl (clearSlot own) p).lif = p.lif := by
  induction is generalizing p with
  | nil => simp
  | cons i is ih =>
    obtain ⟨fresh, once⟩ := List.nodup_cons.1 once
    obtain ⟨clean_i, live_i⟩ := clean i List.mem_cons_self
    obtain ⟨cause, c, bound, retired⟩ := clearSlot_clean (own := own) clean_i live_i
    have slot (j : SlotNo) : (clearSlot own p i).slot j = if i = j then rewritten (p.slot i).gen .nothing else p.slot j := by
      rw [retired, retireSlot_slot cause bound, genView_clean clean_i]
    obtain ⟨slots, free, lif⟩ := ih (p := clearSlot own p i) once fun j hj => by
      have other : i ≠ j := fun e => fresh (e ▸ hj)
      rw [CleanSlot, slot, if_neg other]
      exact clean j (List.mem_cons_of_mem _ hj)
    refine ⟨fun j => ?_, fun j => ?_, ?_⟩
    · rw [List.foldl_cons, slots, slot]
      by_cases here : i = j
      · subst here
        simp [fresh]
      · simp [here, Ne.symm here]
    · rw [List.foldl_cons, free, retired, retireSlot_free_list cause bound]
      simp only [List.mem_append, List.mem_cons, List.not_mem_nil, or_false, or_assoc]
    · rw [List.foldl_cons, lif, retired, retireSlot_links]

theorem mem_liveSlots_clean {i : SlotNo} {p : Part} (clean : CleanSlot i p) : i ∈ liveSlots p ↔ (p.slot i).contents ≠ .nothing := by
  rw [liveSlots_eq, List.mem_filter, finding_clean clean, shadowView_clean clean]
  simp [shadowOf_eq_nothing_iff]

/-- A requested LINE CLEAR retires every live record of a clean store into a clean slot, its generation kept. -/
theorem lineClear_clean {p : Part} (reply : Option Nat) (idle : p.lif.clear = none) (clean : ∀ i : SlotNo, CleanSlot i p) :
    (∀ i, (lineClear none reply p).slot i = rewritten (p.slot i).gen .nothing)
      ∧ ∀ i, i ∈ (lineClear none reply p).rst.free ↔ i ∈ p.rst.free ∨ (p.slot i).contents ≠ .nothing := by
  obtain ⟨c, started, -, auto⟩ := startClear_clear false reply p
  obtain ⟨-, rst', -, -, -, -, -, lif'⟩ := queuesCleared_blocks none reply p
  have cleared := clearBays_cleared (queuesCleared none reply p)
  rw [lineClear_eq]
  generalize queuesCleared none reply p = m at *
  generalize clearBays m = n at *
  obtain ⟨d, clear, same⟩ := cleared.clear c (by rw [lif']; exact started)
  have rst : n.rst = p.rst := by rw [cleared.same.2.1, rst']
  have clean_n (i : SlotNo) : CleanSlot i n := by
    rw [CleanSlot, slot_congr rst]
    exact clean i
  obtain ⟨slots, free, lif⟩ := clearSlots_clean none (nodup_liveSlots n) fun i h => ⟨clean_n i, (mem_liveSlots_clean (clean_n i)).1 h⟩
  rw [clearStore]
  generalize (liveSlots n).foldl (clearSlot none) n = q at *
  have requested : clearIsAuto q = false := by
    rw [clearIsAuto, lif, clear]
    exact same.trans (auto idle)
  rw [rewriteEvery_idle requested]
  refine ⟨fun i => ?_, fun i => ?_⟩
  · rw [show (clearRefs q).slot i = q.slot i from rfl, slots, slot_congr rst]
    split
    · rfl
    · next dead =>
      have empty : (p.slot i).contents = .nothing := by
        rw [mem_liveSlots_clean (clean_n i), slot_congr rst, not_not] at dead
        exact dead
      rw [(clean i).slot_eq, empty]
      rfl
  · rw [show (clearRefs q).rst.free = q.rst.free from rfl, free, mem_liveSlots_clean (clean_n i), slot_congr rst, rst]

/-! LINCLR taken (R57, R205). -/

/-- The part with LINCLR at the head of link 0's list. -/
def clearing (number : Nat) (p : Part) : Part := p.setLink 0 { p.link 0 with requests := [.request (.linclr 0 number)] }

theorem linclr_taken {number : Nat} {s : State} (running : Running s.part) (settled : Settled s.part) (taken : Takes 0 0x19 s.part) :
    ∃ t : State, exec (.linclr 0 number) s = .next t ∧ t.pending = s.pending
      ∧ After (lineClear none (some number) (clearing number s.part)) t.part
      ∧ (t.part.link 0).requests = [.request (.linclr 0 number)] := by
  obtain ⟨hear, empty, can, passes⟩ := taken
  have joined : joinRequests 0 (.request (.linclr 0 number)) s.part = clearing number s.part := by
    rw [joinRequests_room _ (by rw [empty]; decide), empty]
    rfl
  have passes' : refusal 0 0x19 (clearing number s.part) = none := by
    rw [← passes]
    unfold refusal Machine.notEnrolled senderOf
    rw [clearing, Part.link_setLink_same]
  have body : takeLinclr 0 number s.part = lineClear none (some number) (clearing number s.part) := by
    simp only [takeLinclr, arrival_fresh _ hear empty can, beginLinclr, joined, passes']
  have work := lineClear_work none (some number) (clearing number s.part)
  have requests : ((lineClear none (some number) (clearing number s.part)).link 0).requests = [.request (.linclr 0 number)] := by
    rw [work.requests, clearing, Part.link_setLink_same]
  have settled' : Settled (lineClear none (some number) (clearing number s.part)) := by
    refine ⟨?_, work.deferred.trans settled.2⟩
    rw [work.tracker]
    exact (congrArg (List.filter _) settled.1).trans List.filter_nil
  have after := run_after (takeLinclr 0 number) s.part running (by rw [body]; exact settled'.1)
  rw [body] at after
  refine ⟨⟨run (takeLinclr 0 number) s.part, s.pending⟩, rfl, rfl, after, ?_⟩
  have last : ((run (takeLinclr 0 number) s.part).link 0).requests.getLast? = some (.request (.linclr 0 number)) := by
    rw [run_of_running _ running, body]
    exact finish_getLast settled' (by rw [requests]; rfl)
  have suffix := (after.2.1 0).2.2.1
  rw [requests] at suffix
  show ((run (takeLinclr 0 number) s.part).link 0).requests = _
  generalize ((run (takeLinclr 0 number) s.part).link 0).requests = ws at last suffix
  obtain rfl | rfl := List.suffix_cons_iff.1 suffix |>.imp_right List.suffix_nil.1
  · rfl
  · cases last

end Sys2Proof.Machine

/-! PROOFS. LINCLR settles its obligation (1.8, 2.10, 9.9). -/

namespace Sys2Proof.Machine

open Sys2Proof

theorem clearing_sameRecords (number : Nat) (p : Part) : SameRecords p (clearing number p) := ⟨fun _ => ⟨rfl, rfl, rfl⟩, rfl, fun _ => rfl⟩

theorem clearing_sameBundles (number : Nat) (p : Part) : SameBundles p (clearing number p) := .of_blocks rfl rfl

theorem clearTracker_kept_fields (p : Part) (z : Zone) : (clearTracker p).queue z = [] ∧ (clearTracker p).counter z = p.counter z
    ∧ ((clearTracker p).zone z).mark = (p.zone z).mark := by
  cases z <;> exact ⟨rfl, rfl, rfl⟩

theorem clearOrders_order (p : Part) (o : OrderNo) :
    (clearOrders p).order o = (p.order o).map fun x => { x with reservedArea := 0, transitArea := 0 } := by
  simp [clearOrders, Part.order]

theorem After.lineCleared {p q : Part} (h : After p q) (k : LineCleared p) : LineCleared q := by
  obtain ⟨x, d, a, b, c, e⟩ := h.shape
  rw [show q = reshaped x d a b c p from e]
  exact ⟨fun z => (queue_reshaped x d a b c p z).trans (k.queues z), k.tracker, k.planner, k.actions, k.slots, k.contexts, k.orders, k.bundles⟩

/-- A bay that is not CLOSING keeps its state; one that is returns to OPEN or becomes FULL. -/
theorem evaluated_cleared {b : BayNo} {p : Part} {x : Bay} :
    (x.state ≠ .closing → evaluated b (clearOrders p).order (stilled x) = stilled x)
    ∧ ∀ (u : Bundle) (r : Order), x.state = .closing → x.bundle = some u → p.order u.slot = some r →
      let still : Bundle := { u with transit := 0, shortTransit := 0 }
      let v : Bundle := { still with short := u.short || decide (u.landed < r.target) }
      (u.landed < r.target → u.short = false → r.state = .active →
        evaluated b (clearOrders p).order (stilled x) = { x with state := .opened, bundle := some still })
      ∧ ((r.target ≤ u.landed ∨ u.short = true ∨ r.state ≠ .active) →
        evaluated b (clearOrders p).order (stilled x) = { x with state := .full, bundle := some { v with label := some (makeLabel b v r) } }) := by
  refine ⟨fun idle => evaluated_idle idle, fun u r closing bundle order => ?_⟩
  intro still v
  have bundle' : (stilled x).bundle = some still := by rw [stilled, bundle]; rfl
  have order' : (clearOrders p).order still.slot = some { r with reservedArea := 0, transitArea := 0 } := by
    rw [clearOrders_order, order]
    rfl
  have shown := evaluated_outcome (b := b) (x := stilled x) closing bundle' order'
  refine ⟨fun below long active => ?_, fun ends => ?_⟩
  · have outcome : closingOutcome still { r with reservedArea := 0, transitArea := 0 } = .reopen := by
      refine closingOutcome_reopen (not_or.2 ⟨?_, not_or.2 ⟨?_, not_not.2 active⟩⟩)
      · show ¬ r.target ≤ u.landed + 0
        omega
      · show ¬ u.short = true
        rw [long]
        exact Bool.false_ne_true
    rw [shown, outcome]
    show ({ stilled x with state := .opened } : Bay) = _
    rw [stilled, bundle]
    rfl
  · have outcome : closingOutcome still { r with reservedArea := 0, transitArea := 0 } = .fill := closingOutcome_fill rfl ends
    rw [shown, outcome]
    rfl

/-- Settles O33. -/
theorem lineClearEmptiesEveryBlock : Obligations.LineClearEmptiesEveryBlock := by
  refine ⟨fun number s running settled taken idle clean => ?_, fun number s running settled taken laws => ?_,
    fun number s running settled taken => ?_⟩
  all_goals obtain ⟨t, ht, pending, after, requests⟩ := linclr_taken (number := number) running settled taken
  · have work := lineClear_work none (some number) (clearing number s.part)
    obtain ⟨slots, free⟩ := lineClear_clean (p := clearing number s.part) (some number) idle clean
    obtain ⟨⟨-, rst, ztr, acu, ort, bas, cpl⟩, -, -⟩ := after
    generalize lineClear none (some number) (clearing number s.part) = q at *
    have ztr' : t.part.ztr = (clearTracker s.part).ztr := ztr.trans (work.tracker.trans (clearTracker_congr rfl))
    have ctx (c : CtxNo) : t.part.ctx c = q.ctx c := by rw [Part.ctx, cpl]; rfl
    have planner := work.planner
    refine ⟨t, ht, pending, fun i => (slot_congr rst i).trans (slots i), fun i => by rw [rst]; exact free i, fun z => ?_, ?_⟩
    · obtain ⟨queue, counter, mark⟩ := clearTracker_kept_fields s.part z
      have zone : t.part.zone z = (clearTracker s.part).zone z := by cases z <;> simp only [Part.zone, ztr']
      rw [Part.queue, Part.counter, zone]
      exact ⟨queue, counter, mark⟩
    · rw [ztr']
      refine ⟨rfl, rfl, rfl, rfl, rfl, rfl, rfl, rfl, rfl, rfl, rfl, fun c => ?_, ?_, ?_, ?_, ?_, ?_, ?_, fun o => ?_, ?_, fun b u h => ?_, requests⟩
      · rw [ctx, work.contexts]
        rfl
      · rw [cpl, planner]; rfl
      · rw [cpl, planner]; rfl
      · rw [cpl, planner]; rfl
      · rw [cpl, planner]; rfl
      · rw [cpl, planner]; rfl
      · rw [acu, work.actions]; rfl
      · rw [Part.order, ort, work.orders]
        exact clearOrders_order s.part o
      · rw [ort, work.orders]; rfl
      · rw [Option.mem_def, baysOf_blocks bas, work.bays] at h
        exact evaluated_stilled h
  · have laws' : StoreLaws (clearing number s.part) := (clearing_sameRecords number s.part).storeLaws laws
    have cleared := lineClear_cleared laws' none (some number)
    have kept := lineClear_lawful none (some number) (clearing number s.part)
    exact ⟨t, ht, pending, after.lineCleared cleared, (after.kept.records).storeLaws (kept.store laws'), fun orders =>
      ((((clearing_sameBundles number s.part).trans kept.bundles).trans after.kept.bundles)).orderLaws orders⟩
  · have work := lineClear_work none (some number) (clearing number s.part)
    refine ⟨t, ht, pending, fun b => ?_⟩
    have bay : t.part.bay b = evaluated b (clearOrders s.part).order (stilled (s.part.bay b)) := by
      rw [baysOf_blocks after.1.2.2.2.2.2.1, work.bays]
      rfl
    rw [bay]
    exact evaluated_cleared

end Sys2Proof.Machine

/-! PROOFS. Whole-item waste at the C-eye (2.7, 6.3, 6.5). -/

namespace Sys2Proof.Machine

open Sys2Proof

/-! A waste interval entered (R126, R129). -/

theorem serveFlap_shape (p : Part) : serveFlap p = { p with acu := (serveFlap p).acu } := by
  unfold serveFlap
  split
  · rfl
  · split
    · rfl
    · split
      · rfl
      · split
        · rfl
        · unfold startFlap
          split <;> rfl

/-- Compares armed and cancelled, and nothing else. -/
def Recompared (p q : Part) : Prop := ∃ (cs : List Compare) (due now : List Event), q = { p with
  ztr.compares := cs
  ztr.due := due
  ztr.atOnce := now }

theorem Recompared.refl (p : Part) : Recompared p p := ⟨_, _, _, rfl⟩

theorem Recompared.trans {p q r : Part} (h : Recompared p q) (k : Recompared q r) : Recompared p r := by
  obtain ⟨_, _, _, rfl⟩ := h
  obtain ⟨_, _, _, rfl⟩ := k
  exact ⟨_, _, _, rfl⟩

theorem cancel_recompared (e : Event) (p : Part) : Recompared p (cancel e p) := ⟨_, _, _, rfl⟩

theorem arm_recompared (e : Event) (t : Nat) (p : Part) : Recompared p (arm e t p) := by
  obtain ⟨cs, now, h⟩ := arm_shape e t p
  rw [h]
  exact ⟨_, _, _, rfl⟩

theorem cancelEntry_recompared (e : WasteEntry) (p : Part) : Recompared p (cancelEntry e p) := by
  unfold cancelEntry
  dsimp only
  split
  · exact cancel_recompared _ p
  · exact (cancel_recompared _ p).trans (cancel_recompared _ _)

theorem armEntry_recompared (e : WasteEntry) (p : Part) : Recompared p (armEntry e p) := by
  have first : Recompared p (if openAhead e.state = true then arm (.wasteOpen e.openT) e.openT p else p) := by
    split
    · exact arm_recompared _ _ p
    · exact .refl p
  unfold armEntry
  dsimp only
  split
  · exact first
  · split
    · exact first
    · exact first.trans (arm_recompared _ _ _)

/-- The part with an entry in the waste list in the place of others, before its targets are armed. -/
def entered (e : WasteEntry) (gone rest : List WasteEntry) (p : Part) : Part :=
  { gone.foldl (fun q x => cancelEntry x q) p with
    acu.waste := insertEntry e rest
    acu.mark := if e.shutT.isNone then some e.openT else p.acu.mark }

theorem placed_recompared (gone : List WasteEntry) (p : Part) : Recompared p (gone.foldl (fun q x => cancelEntry x q) p) :=
  foldl_within Recompared.refl Recompared.trans (fun p x => cancelEntry_recompared x p) gone p

theorem placeEntry_eq (e : WasteEntry) (gone rest : List WasteEntry) (p : Part) : placeEntry e gone rest p =
    if newlyOwes e gone then serveFlap (armEntry e (entered e gone rest p)) else armEntry e (entered e gone rest p) := by
  obtain ⟨cs, due, now, h⟩ := placed_recompared gone p
  unfold placeEntry entered
  rw [h]

theorem placeEntry_shape (e : WasteEntry) (gone rest : List WasteEntry) (p : Part) : ∃ (es : List WasteEntry) (m : Option Nat)
    (cs : List Compare) (due now : List Event),
    let q := { p with
      acu.waste := es
      acu.mark := m
      ztr.compares := cs
      ztr.due := due
      ztr.atOnce := now }
    placeEntry e gone rest p = q ∨ placeEntry e gone rest p = serveFlap q := by
  rw [placeEntry_eq]
  obtain ⟨cs, due, now, h⟩ := placed_recompared gone p
  obtain ⟨cs', due', now', k⟩ := armEntry_recompared e (entered e gone rest p)
  rw [k, entered, h]
  refine ⟨insertEntry e rest, if e.shutT.isNone then some e.openT else p.acu.mark, cs', due', now', ?_⟩
  by_cases owed : newlyOwes e gone = true
  · rw [if_pos owed]
    exact .inr rfl
  · rw [if_neg owed]
    exact .inl rfl

/-- An interval entered changes the waste list, the mark, the targets armed, and the pulse that starts. -/
theorem enterWaste_shape (o : Nat) (t : Option Nat) (p : Part) : ∃ (es : List WasteEntry) (m : Option Nat) (cs : List Compare)
    (due now : List Event),
    let q := { p with
      acu.waste := es
      acu.mark := m
      ztr.compares := cs
      ztr.due := due
      ztr.atOnce := now }
    enterWaste o t p = q ∨ enterWaste o t p = serveFlap q := by
  unfold enterWaste
  dsimp only
  split
  · split
    · exact ⟨_, _, _, _, _, .inl rfl⟩
    · exact placeEntry_shape _ _ _ p
  · exact placeEntry_shape _ _ _ p

theorem enterWaste_blocks (o : Nat) (t : Option Nat) (p : Part) :
    (enterWaste o t p).rst = p.rst ∧ (enterWaste o t p).lif = p.lif ∧ (enterWaste o t p).ztr.eyeC = p.ztr.eyeC := by
  obtain ⟨es, m, cs, due, now, h | h⟩ := enterWaste_shape o t p
  · rw [h]; exact ⟨rfl, rfl, rfl⟩
  · rw [h, serveFlap_shape]; exact ⟨rfl, rfl, rfl⟩

/-- The only interval of the waste list, its targets ahead. -/
def wastes (o t : Nat) (p : Part) : Part :=
  { p with
    ztr.compares := p.ztr.compares ++ [⟨.wasteOpen o, o⟩, ⟨.wasteShut t, t⟩]
    acu.waste := [⟨o, some t, .waiting⟩] }

theorem enterWaste_alone {o : Nat} {t : Option Nat} {p : Part} (none_stands : p.acu.waste = []) :
    enterWaste o t p = armEntry ⟨o, t, .waiting⟩ { p with
      acu.waste := [⟨o, t, .waiting⟩]
      acu.mark := if t.isNone then some o else p.acu.mark } := by
  unfold enterWaste
  dsimp only
  rw [none_stands, if_neg (by simp [Config.wasteCap])]
  exact placeEntry_fresh rfl

theorem enterWaste_closed {o t : Nat} {p : Part} (none_stands : p.acu.waste = []) (opens : strictlyAhead .C o (p.counter .C) = true)
    (shuts : strictlyAhead .C t (p.counter .C) = true) : enterWaste o (some t) p = wastes o t p := by
  rw [enterWaste_alone none_stands, armEntry]
  dsimp only
  rw [openAhead, if_pos rfl, shutTaken, if_neg Bool.false_ne_true, arm_ahead (e := .wasteOpen o) (by exact opens),
    arm_ahead (e := .wasteShut t) (by exact shuts), wastes]
  dsimp only
  rw [List.append_assoc]
  rfl

theorem enterWaste_openEnded {o : Nat} {p : Part} (none_stands : p.acu.waste = []) (opens : strictlyAhead .C o (p.counter .C) = true) :
    enterWaste o none p = { p with
      ztr.compares := p.ztr.compares ++ [⟨.wasteOpen o, o⟩]
      acu.waste := [⟨o, none, .waiting⟩]
      acu.mark := some o } := by
  rw [enterWaste_alone none_stands, armEntry]
  dsimp only
  rw [openAhead, if_pos rfl, arm_ahead (by exact opens)]
  rfl

/-! The C-eye's edges (R37, R50, R51). -/

/-- The C-eye's leading edge recorded. -/
def edgeC (p : Part) : Part := { p with ztr.eyeC := { p.ztr.eyeC with blocked := true, lead := p.counter .C } }

theorem cEyeLeading_edge {p : Part} (clear : p.ztr.eyeC.blocked = false) (valid : p.ztr.geoValid = true) :
    cEyeLeading p = captureC (edgeC p) := by
  rw [cEyeLeading, clear, if_neg Bool.false_ne_true]
  exact if_pos valid

theorem captureC_empty {p : Part} (queue : p.queue .B = []) :
    captureC p = enterWaste (minus .C (p.counter .C + p.ztr.geo.dFlap) p.ztr.geo.pFlap) none p := by
  rw [captureC, matchedHead_empty queue]
  rfl

theorem captureC_strip {e : Entry} {x : Strip} {p : Part} (queue : p.queue .B = [e]) (tag : e.tag = some x.tag) (h : HoldsStrip x p)
    (window : inWindow .B (p.counter .B) e.expect e.half = true) : captureC p = cEyeStrip x (p.counter .C) (gone .B e p) := by
  rw [captureC, matchedHead_hit queue window]
  dsimp only
  rw [popHead_only queue, tag, show cancel (.expiry .B) (entryGone .B e (p.setQueue .B [])) = gone .B e p from rfl]
  dsimp only
  rw [lookup_strip .ztr (h.congr (gone_rst .B e p))]

/-- The first countable event of coalescing, a strip REJECTED. -/
def countedRejected (p : Part) : Part := { p with lif.coalesce := some ⟨0, 1, 0, p.lif.delay, 8 * p.lif.delay⟩ }

/-- A strip wasted whole. -/
theorem wasteStrip_after {x : Strip} {lead len : Nat} {p : Part} (h : HoldsStrip x p) (lenB : x.lenB = some len)
    (idle : p.lif.coalesce = none) (delay : 0 < p.lif.delay) :
    After (countedRejected (retireSlot (slotOf x.tag) (.strip .rejected) (enterWaste (minus .C (lead + p.ztr.geo.dFlap) p.ztr.geo.pFlap)
      (some (minus .C (lead + p.ztr.geo.dFlap + len) p.ztr.geo.pFlap)) p))) (wasteStrip x.tag lead p) := by
  have whole : wasteWhole lead (x.lenB <|> x.lenA) p = enterWaste (minus .C (lead + p.ztr.geo.dFlap) p.ztr.geo.pFlap)
      (some (minus .C (lead + p.ztr.geo.dFlap + len) p.ztr.geo.pFlap)) p := by
    rw [lenB]
    rfl
  rw [wasteStrip, recordAt_strip h]
  dsimp only
  rw [whole]
  obtain ⟨-, lif, -⟩ := enterWaste_blocks (minus .C (lead + p.ztr.geo.dFlap) p.ztr.geo.pFlap)
    (some (minus .C (lead + p.ztr.geo.dFlap + len) p.ztr.geo.pFlap)) p
  generalize enterWaste _ _ p = w at lif ⊢
  have left := retire_after (slotOf x.tag) (.strip .rejected) w
  obtain ⟨coalesce, delay'⟩ := left.coalesce
  rw [retireSlot_links, lif] at coalesce delay'
  rw [countEvent_idle (coalesce.trans idle) (by rw [delay']; omega)]
  exact left.map (f := countedRejected) (fun _ _ _ _ _ _ => rfl) fun _ => rfl

/-- Settles O22. -/
theorem cEyeOpensAndClosesInterval : Obligations.CEyeOpensAndClosesInterval := by
  refine ⟨fun s r settled => ?_, fun s r settled => ?_, fun s r settled => ?_⟩
  · intro p n o clear valid queue none_stands opens
    refine completes_of_eq rfl r ?_ settled.1
    rw [cEyeLeading_edge clear valid, captureC_empty (p := edgeC s.part) queue]
    exact enterWaste_openEnded (p := edgeC s.part) none_stands opens
  · intro p n o seen clear valid
    refine ⟨fun queue at_once => completes_of_eq rfl r ?_ at_once, fun x e len queue tag h state window lenB idle delay => ?_⟩
    · rw [cEyeLeading_edge clear valid, captureC_empty (p := edgeC s.part) queue]
      rfl
    · intro t w at_once
      have body : cEyeLeading s.part = wasteStrip x.tag n (gone .B e (edgeC s.part)) := by
        rw [cEyeLeading_edge clear valid, captureC_strip (p := edgeC s.part) queue tag h window, cEyeStrip, state]
        rfl
      refine completes_of_after rfl r ?_ ((retireSlot_atOnce _ _ _).trans at_once)
      have wasted := wasteStrip_after (p := gone .B e (edgeC s.part)) (lead := n) (h.congr (gone_rst .B e (edgeC s.part))) lenB idle delay
      have lif : (retireSlot (slotOf x.tag) (.strip .rejected) w).lif = s.part.lif :=
        (retireSlot_links _ _ _).trans (enterWaste_blocks _ _ _).2.1
      rw [body]
      rw [countedRejected] at wasted
      have delays : (retireSlot (slotOf x.tag) (.strip .rejected) w).lif.delay = s.part.lif.delay := by rw [lif]
      rw [show p.lif.delay = (retireSlot (slotOf x.tag) (.strip .rejected) w).lif.delay from delays.symm]
      exact wasted
  · intro p t blocked valid
    have body : cEyeTrailing s.part = closeOpenEnded t p := by
      rw [cEyeTrailing, blocked, if_neg (by decide)]
      exact if_pos valid
    refine ⟨fun unmarked => completes_of_eq rfl r ?_ settled.1, fun o w marked lone ahead => completes_of_eq rfl r ?_ settled.1⟩
    · rw [body, closeOpenEnded, unmarked]
    · rw [body, closeOpenEnded, marked, lone]
      dsimp only
      rw [arm_ahead (by exact ahead)]
      simp only [List.map_cons, List.map_nil, decide_true, Option.isNone_none, Bool.and_self, if_true]

end Sys2Proof.Machine

/-! PROOFS. A strip without a plan at the C-eye (2.7, 6.3, 6.5). -/

namespace Sys2Proof.Machine

open Sys2Proof

/-- A strip with neither plan nor cause is rejected at the C-eye. -/
theorem cEyeStrip_early {x : Strip} {lead : Nat} {p : Part} (rejecting : x.state ≠ .rejecting) (planned : x.state ≠ .planned)
    (cutting : x.state ≠ .cutting) : ∃ cause, cEyeStrip x lead p = wasteStrip x.tag lead
      (writeStrip { x with state := .rejecting, reject := some cause } (cancel (.deadline x.tag) (leavePlanner x.tag p))) := by
  have rejected (cause : RejectCause) : rejectAndWaste cause x lead p = wasteStrip x.tag lead
      (writeStrip { x with state := .rejecting, reject := some cause } (cancel (.deadline x.tag) (leavePlanner x.tag p))) := by
    rw [rejectAndWaste, rejectStrip_early .ztr cause rejecting cutting planned, unlessCleared, if_neg Bool.false_ne_true]
  cases state : x.state with
  | planned => exact absurd state planned
  | cutting => exact absurd state cutting
  | rejecting => exact absurd state rejecting
  | enteringA => exact ⟨_, by rw [cEyeStrip, state]; exact rejected .noMap⟩
  | inA => exact ⟨_, by rw [cEyeStrip, state]; exact rejected .noMap⟩
  | enteringB => exact ⟨_, by rw [cEyeStrip, state]; exact rejected .noMap⟩
  | scanning => exact ⟨_, by rw [cEyeStrip, state]; exact rejected .noMap⟩
  | mapped => exact ⟨_, by rw [cEyeStrip, state]; exact rejected .latePlan⟩
  | planning => exact ⟨_, by rw [cEyeStrip, state]; exact rejected .latePlan⟩

/-- A strip wasted whole as the only interval, its record rewritten before. -/
theorem wasteStrip_written {x y : Strip} {lead len o t : Nat} {p : Part} (h : HoldsStrip x p) (tag : y.tag = x.tag) (ctx : y.ctx = x.ctx)
    (lenB : y.lenB = some len) (opened : minus .C (lead + p.ztr.geo.dFlap) p.ztr.geo.pFlap = o)
    (shut : minus .C (lead + p.ztr.geo.dFlap + len) p.ztr.geo.pFlap = t) (none_stands : p.acu.waste = [])
    (opens : strictlyAhead .C o (p.counter .C) = true) (shuts : strictlyAhead .C t (p.counter .C) = true)
    (idle : p.lif.coalesce = none) (delay : 0 < p.lif.delay) :
    After (countedRejected (retireSlot (slotOf x.tag) (.strip .rejected) (wastes o t p))) (wasteStrip x.tag lead (writeStrip y p)) := by
  have wasted := wasteStrip_after (p := writeStrip y p) (lead := lead) (h.written tag) lenB idle delay
  rw [show (writeStrip y p).ztr.geo = p.ztr.geo from rfl, opened, shut, enterWaste_closed (p := writeStrip y p) none_stands opens shuts, tag,
    show wastes o t (writeStrip y p) = writeStrip y (wastes o t p) from rfl,
    retireSlot_writeStrip .rejected (show HoldsStrip x (wastes o t p) from h) tag ctx] at wasted
  exact wasted

theorem wasteStrip_alone {x : Strip} {lead len o t : Nat} {p : Part} (h : HoldsStrip x p)
    (lenB : x.lenB = some len) (opened : minus .C (lead + p.ztr.geo.dFlap) p.ztr.geo.pFlap = o)
    (shut : minus .C (lead + p.ztr.geo.dFlap + len) p.ztr.geo.pFlap = t) (none_stands : p.acu.waste = [])
    (opens : strictlyAhead .C o (p.counter .C) = true) (shuts : strictlyAhead .C t (p.counter .C) = true)
    (idle : p.lif.coalesce = none) (delay : 0 < p.lif.delay) :
    After (countedRejected (retireSlot (slotOf x.tag) (.strip .rejected) (wastes o t p))) (wasteStrip x.tag lead p) := by
  have wasted := wasteStrip_after (lead := lead) h lenB idle delay
  rw [opened, shut, enterWaste_closed none_stands opens shuts] at wasted
  exact wasted

/-- What a wasted strip leaves, its countable event as the command's statement names it. -/
theorem countedRejected_retired (i : SlotNo) (c : Retire) {w p : Part} (lif : w.lif = p.lif) :
    countedRejected (retireSlot i c w) = { retireSlot i c w with lif.coalesce := some ⟨0, 1, 0, p.lif.delay, 8 * p.lif.delay⟩ } := by
  have kept : (retireSlot i c w).lif.delay = p.lif.delay := by rw [retireSlot_links, lif]
  rw [countedRejected, kept]

/-- Settles O20. -/
theorem cEyeWastesUnplannedStrip : Obligations.CEyeWastesUnplannedStrip := by
  intro x e len s r settled p n o t q w clear valid queue tag h window planned cutting lenB none_stands opens shuts idle delay
  have body : cEyeLeading s.part = cEyeStrip x n (gone .B e (edgeC s.part)) := by
    rw [cEyeLeading_edge (p := s.part) clear valid, captureC_strip (p := edgeC s.part) queue tag h window]
    rfl
  have held : HoldsStrip x (gone .B e (edgeC s.part)) := h.congr (gone_rst .B e (edgeC s.part))
  have at_once : (gone .B e (edgeC s.part)).ztr.atOnce = [] := gone_atOnce e settled.1
  by_cases rejecting : x.state = .rejecting
  · have w_eq : w = wastes o t (gone .B e (edgeC s.part)) := by
      simp only [w, q, if_pos rejecting]
      rfl
    rw [← countedRejected_retired (p := p) _ _ (show w.lif = p.lif by rw [w_eq]; rfl), w_eq]
    refine completes_of_after rfl r ?_ ((retireSlot_atOnce _ _ _).trans at_once)
    rw [body, cEyeStrip, rejecting]
    exact wasteStrip_alone held lenB rfl rfl none_stands opens shuts idle delay
  · have w_eq : w = wastes o t (cancel (.deadline x.tag) (leavePlanner x.tag (gone .B e (edgeC s.part)))) := by
      simp only [w, q, if_neg rejecting]
      rfl
    rw [← countedRejected_retired (p := p) _ _ (show w.lif = p.lif by rw [w_eq]; rfl), w_eq]
    obtain ⟨cause, rejected⟩ := cEyeStrip_early (lead := n) (p := gone .B e (edgeC s.part)) rejecting planned cutting
    refine completes_of_after rfl r ?_ ((retireSlot_atOnce _ _ _).trans (cancel_atOnce _ at_once))
    rw [body, rejected]
    exact wasteStrip_written (y := { x with state := .rejecting, reject := some cause })
      (p := cancel (.deadline x.tag) (leavePlanner x.tag (gone .B e (edgeC s.part)))) held rfl rfl lenB rfl rfl none_stands opens shuts idle delay

end Sys2Proof.Machine

/-! PROOFS. Scheduling at the C-eye (5.10, 5.11, 6.2, 6.3). -/

namespace Sys2Proof.Machine

open Sys2Proof

/-! Retirements beside writes to other slots and to the waste list. -/

theorem retireSlot_setSlot {i j : SlotNo} (h : i ≠ j) (c : Retire) (x : Slot) (p : Part) :
    retireSlot i c (p.setSlot j x) = (retireSlot i c p).setSlot j x := by
  unfold retireSlot
  dsimp only
  rw [Part.slot_setSlot_other _ _ _ _ (Ne.symm h)]
  split
  · rfl
  · have moved := setSlot_comm (Ne.symm h) x (rewritten (genView (p.slot i)) .nothing) p
    cases c
    all_goals
      rw [moved]
      rfl

theorem retireSlot_slot_other {i j : SlotNo} (h : i ≠ j) (c : Retire) (p : Part) : (retireSlot i c p).slot j = p.slot j := by
  cases bound : shadowCtx (shadowView (p.slot i)) with
  | none => rw [retireSlot_free c bound]
  | some d => rw [retireSlot_slot c bound, if_neg h]

theorem retireSlot_writeRecord {i j : SlotNo} (h : i ≠ j) (r : Retire) (c : Contents) (p : Part) :
    retireSlot i r (writeRecord j c p) = writeRecord j c (retireSlot i r p) := by
  rw [writeRecord, retireSlot_setSlot h, writeRecord, retireSlot_slot_other h]

theorem holdsStrip_retireSlot {x : Strip} {i : SlotNo} {p : Part} (other : i ≠ slotOf x.tag) (c : Retire) (h : HoldsStrip x p) :
    HoldsStrip x (retireSlot i c p) := by
  rwa [HoldsStrip, CleanSlot, retireSlot_slot_other other]

theorem retireSlot_wastes (i : SlotNo) (c : Retire) (o t : Nat) (p : Part) : retireSlot i c (wastes o t p) = wastes o t (retireSlot i c p) := by
  unfold retireSlot
  dsimp only
  rw [show (wastes o t p).slot i = p.slot i from rfl]
  split
  · rfl
  · cases c <;> rfl

/-- A strip wasted whole behind its rewriting and a re-evaluation. -/
theorem wasteStrip_behind {x y : Strip} {lead len o t : Nat} {p q : Part} (h : HoldsStrip x p) (tag : y.tag = x.tag) (ctx : y.ctx = x.ctx)
    (after : After (writeStrip y p) q) (lenB : y.lenB = some len) (opened : minus .C (lead + p.ztr.geo.dFlap) p.ztr.geo.pFlap = o)
    (shut : minus .C (lead + p.ztr.geo.dFlap + len) p.ztr.geo.pFlap = t) (none_stands : p.acu.waste = [])
    (opens : strictlyAhead .C o (p.counter .C) = true) (shuts : strictlyAhead .C t (p.counter .C) = true)
    (idle : p.lif.coalesce = none) (delay : 0 < p.lif.delay) :
    After (countedRejected (retireSlot (slotOf x.tag) (.strip .rejected) (wastes o t p))) (wasteStrip x.tag lead q) := by
  have held : HoldsStrip y q := HoldsStrip.behind (h.written tag) after
  have ztr : q.ztr = p.ztr := after.1.2.2.1
  have acu : q.acu = p.acu := after.1.2.2.2.1
  have counter : q.counter .C = p.counter .C := by rw [Part.counter, Part.zone, ztr]; rfl
  obtain ⟨coalesce, delay'⟩ := after.coalesce
  have wasted := wasteStrip_alone (o := o) (t := t) (lead := lead) held lenB (by rw [ztr]; exact opened) (by rw [ztr]; exact shut) (by rw [acu]; exact none_stands)
    (by rw [counter]; exact opens) (by rw [counter]; exact shuts) (coalesce.trans idle) (by rw [delay']; exact delay)
  have moved := (((after.map (f := wastes o t) (fun _ _ _ _ _ _ => rfl) fun _ => rfl).retireSlot (slotOf x.tag) (.strip .rejected)).map
    (f := countedRejected) (fun _ _ _ _ _ _ => rfl) fun _ => rfl)
  rw [show wastes o t (writeStrip y p) = writeStrip y (wastes o t p) from rfl,
    retireSlot_writeStrip .rejected (show HoldsStrip x (wastes o t p) from h) tag ctx] at moved
  rw [tag] at wasted
  exact moved.trans wasted

/-! A strip whose scheduling fails (R118, R120, R121). -/

/-- What becomes of a PLANNED strip, of one piece, that fails a condition of scheduling. -/
theorem cEyeStrip_unscheduled {x : Strip} {y : Piece} {pl : PlanEntry} {value lead len o t : Nat} {p : Part} (planned : x.state = .planned)
    (fails : canSchedule x lead p = false) (h : HoldsStrip x p) (plan : x.plan = some ⟨value, [pl]⟩) (place : pl.tag = some y.tag)
    (piece : HoldsPiece y p) (state : y.state = .planned) (other : slotOf y.tag ≠ slotOf x.tag) (lenB : x.lenB = some len)
    (opened : minus .C (lead + p.ztr.geo.dFlap) p.ztr.geo.pFlap = o) (shut : minus .C (lead + p.ztr.geo.dFlap + len) p.ztr.geo.pFlap = t)
    (none_stands : p.acu.waste = []) (opens : strictlyAhead .C o (p.counter .C) = true) (shuts : strictlyAhead .C t (p.counter .C) = true)
    (idle : p.lif.coalesce = none) (delay : 0 < p.lif.delay) :
    After (countedRejected (retireSlot (slotOf x.tag) (.strip .rejected) (retireSlot (slotOf y.tag) (.piece .discarded)
      (lessArea y.reserved y.area (wastes o t (cancel (.deadline x.tag) (leavePlanner x.tag p))))))) (cEyeStrip x lead p) := by
  let x' : Strip := { x with state := .rejecting, reject := some .schedule }
  let m := cancel (.deadline x.tag) (leavePlanner x.tag p)
  have held : HoldsStrip x' (writeStrip x' m) := HoldsStrip.written (x := x) h rfl
  have piece' : HoldsPiece y (writeStrip x' m) := holdsPiece_setSlot piece (Ne.symm other)
  have ended := endPieces_single (states := [.planned]) .ztr .discarded plan place piece' (by rw [state]; rfl)
  have left := endPiece_planned .discarded piece' state
  have body : cEyeStrip x lead p = wasteStrip x.tag lead (endPiece y .discarded (writeStrip x' m)) := by
    have early : ¬ (x.state = .rejecting ∨ x.state = .cutting) := by rw [planned]; decide
    rw [cEyeStrip, planned]
    dsimp only
    rw [fails, if_neg Bool.false_ne_true, rejectAndWaste, rejectStrip, if_neg early]
    dsimp only
    rw [if_pos planned, ended, unlessCleared, if_neg Bool.false_ne_true]
  rw [body]
  have moved : lessArea y.reserved y.area (writeStrip x' m) = writeStrip x' (lessArea y.reserved y.area m) := by
    cases y.reserved <;> rfl
  rw [moved, show retireSlot (slotOf y.tag) (.piece .discarded) (writeStrip x' (lessArea y.reserved y.area m)) =
    writeStrip x' (retireSlot (slotOf y.tag) (.piece .discarded) (lessArea y.reserved y.area m)) from
    retireSlot_writeRecord other _ _ _] at left
  let n := retireSlot (slotOf y.tag) (.piece .discarded) (lessArea y.reserved y.area m)
  have blocks : n.ztr.geo = p.ztr.geo ∧ n.acu = p.acu ∧ n.counter .C = p.counter .C ∧ n.lif = p.lif := by
    have retired : n.ztr.geo = (lessArea y.reserved y.area m).ztr.geo ∧ n.acu = (lessArea y.reserved y.area m).acu
        ∧ n.counter .C = (lessArea y.reserved y.area m).counter .C ∧ n.lif = (lessArea y.reserved y.area m).lif := by
      simp only [n]
      unfold retireSlot
      dsimp only
      split
      · exact ⟨rfl, rfl, rfl, rfl⟩
      · exact ⟨rfl, rfl, rfl, rfl⟩
    obtain ⟨geo, acu, counter, lif⟩ := retired
    rw [geo, acu, counter, lif]
    cases y.reserved <;> exact ⟨rfl, rfl, rfl, rfl⟩
  obtain ⟨geo, acu, counter, lif⟩ := blocks
  have strip_n : HoldsStrip x n := holdsStrip_retireSlot other _ (HoldsStrip.congr (lessArea_rst _ _ _) h)
  generalize endPiece y .discarded (writeStrip x' m) = q at left
  have same : wastes o t (lessArea y.reserved y.area m) = lessArea y.reserved y.area (wastes o t m) := by
    cases y.reserved <;> rfl
  rw [← same, retireSlot_wastes]
  show After (countedRejected (retireSlot (slotOf x.tag) (.strip .rejected) (wastes o t n))) (wasteStrip x.tag lead q)
  exact wasteStrip_behind (y := x') (p := n) strip_n rfl rfl left lenB (by rw [geo]; exact opened) (by rw [geo]; exact shut) (by rw [acu]; exact none_stands)
    (by rw [counter]; exact opens) (by rw [counter]; exact shuts) (by rw [lif]; exact idle) (by rw [lif]; exact delay)

end Sys2Proof.Machine

/-! PROOFS. Scheduling at the C-eye that succeeds, and its conditions (5.10, 5.11, 6.2, 6.3). -/

namespace Sys2Proof.Machine

open Sys2Proof

theorem appendSaw_ahead {ts : List Nat} {tag : Nat} {p : Part} (ahead : ∀ t ∈ ts, strictlyAhead .C t (p.counter .C) = true) :
    appendSaw ts tag p = { p with
      acu.saw := p.acu.saw ++ ts.map fun t => ⟨t, tag⟩
      ztr.compares := p.ztr.compares ++ ts.map fun t => ⟨.saw t, t⟩ } := by
  induction ts generalizing p with
  | nil => simp only [List.map_nil, List.append_nil]; rfl
  | cons t ts ih =>
    rw [appendSaw, List.foldl_cons, arm_ahead (e := .saw t) (by exact ahead t List.mem_cons_self)]
    have rest := ih (p := { p with
      acu.saw := p.acu.saw ++ [⟨t, tag⟩], ztr.compares := p.ztr.compares ++ [⟨.saw t, t⟩] }) fun u hu => ahead u (List.mem_cons_of_mem _ hu)
    rw [appendSaw] at rest
    rw [rest]
    simp only [List.append_assoc, List.cons_append, List.nil_append, List.map_cons]

theorem planSpans_single {x : Strip} {pl : PlanEntry} {value : Nat} (plan : x.plan = some ⟨value, [pl]⟩) :
    planSpans x = [(pl.start, pl.foot)] := by
  rw [planSpans, plan]
  rfl

/-- A single place has two cuts at most. -/
theorem cutsOf_single_length (kerf length start foot : Nat) : (cutsOf kerf length [(start, foot)]).length ≤ 2 := by
  simp only [cutsOf, cutsFrom, List.append_nil]
  split <;> split <;> simp

theorem not_behind {z : Zone} {t n : Nat} (h : strictlyAhead z t n = true) : behind z t n = false := by
  simp only [strictlyAhead, Bool.and_eq_true, decide_eq_true_eq] at h
  simp only [behind, decide_eq_false_iff_not]
  omega

/-- One place, and nothing in the way. -/
theorem canSchedule_alone {x : Strip} {pl : PlanEntry} {value lead : Nat} {p : Part} (plan : x.plan = some ⟨value, [pl]⟩)
    (saw : p.acu.saw = []) (cut : p.acu.lastCut = none) (cuts : p.ztr.cutList = []) (queue : p.queue .C = [])
    (ahead : ∀ t ∈ sawTargets x lead p, strictlyAhead .C t (p.counter .C) = true) : canSchedule x lead p = true := by
  have few : (sawTargets x lead p).length ≤ 2 := by
    rw [sawTargets, planSpans_single plan, List.length_map]
    exact cutsOf_single_length _ _ _ _
  have recovery : recovered (sawTargets x lead p) p = true := by
    rw [recovered, recoveryReference, saw, cut]
    cases (sawTargets x lead p).head? <;> rfl
  have forward : (sawTargets x lead p).all (fun t => !behind .C t (p.counter .C)) = true := by
    rw [List.all_eq_true]
    exact fun t ht => by rw [not_behind (ahead t ht)]; rfl
  have room : zoneTakes (planSpans x).length (firstLead x lead) p = true := by
    rw [zoneTakes, queue, planSpans_single plan]
    rfl
  rw [canSchedule, recovery, forward, room, saw, cuts]
  simp only [List.length_nil, Nat.zero_add, Config.sawCap, Config.cutListCap, Bool.and_true, Bool.and_eq_true, decide_eq_true_eq]
  exact ⟨by omega, by decide⟩

/-- The part with a strip scheduled at its targets, before its waste intervals are entered. -/
def scheduled (x : Strip) (y : Piece) (lead pos far : Nat) (v : Entry) (targets : List Nat) (p : Part) : Part :=
  { (writePiece { y with state := .beltC, lead := some pos } (writeStrip { x with
      state := .cutting, leadC := some lead, pendingSaw := targets.length } p)).setQueue .C [v] with
    ztr.cutList := [⟨x.tag, lead⟩]
    ztr.compares := p.ztr.compares ++ targets.map (fun t => ⟨.saw t, t⟩) ++ [⟨.expiry .C, far⟩]
    acu.saw := targets.map fun t => ⟨t, x.tag⟩ }

theorem schedule_alone {x : Strip} {y : Piece} {pl : PlanEntry} {value lead : Nat} {p : Part} (plan : x.plan = some ⟨value, [pl]⟩)
    (place : pl.tag = some y.tag) (piece : HoldsPiece y p) (other : slotOf y.tag ≠ slotOf x.tag) (saw : p.acu.saw = [])
    (cuts : p.ztr.cutList = []) (queue : p.queue .C = []) (some_cut : sawTargets x lead p ≠ [])
    (ahead : ∀ t ∈ sawTargets x lead p, strictlyAhead .C t (p.counter .C) = true)
    (far : strictlyAhead .C (wrap .C (wrap .C (wrap .C (lead + pl.start) + p.ztr.geo.gCD) + p.ztr.geo.wCD)) (p.counter .C) = true) :
    schedule x lead p = (flapTargets x lead p).foldl (fun q w => enterWaste w.1 (some w.2) q)
      (scheduled x y lead (wrap .C (lead + pl.start)) (wrap .C (wrap .C (wrap .C (lead + pl.start) + p.ztr.geo.gCD) + p.ztr.geo.wCD))
        ⟨some y.tag, wrap .C (lead + pl.start), wrap .C (wrap .C (lead + pl.start) + p.ztr.geo.gCD), p.ztr.geo.wCD, .none⟩
        (sawTargets x lead p) p) := by
  let targets := sawTargets x lead p
  let pos := wrap .C (lead + pl.start)
  let m : Part := { writeStrip { x with state := .cutting, leadC := some lead, pendingSaw := targets.length } p with
    ztr.cutList := [⟨x.tag, lead⟩]
    ztr.compares := p.ztr.compares ++ targets.map (fun t => ⟨.saw t, t⟩)
    acu.saw := targets.map fun t => ⟨t, x.tag⟩ }
  have held : HoldsPiece y m := holdsPiece_setSlot (x := ⟨(p.slot (slotOf x.tag)).gen, .strip { x with
    state := .cutting, leadC := some lead, pendingSaw := targets.length }, .good, ⟨(p.slot (slotOf x.tag)).gen, shadowOf (.strip { x with
    state := .cutting, leadC := some lead, pendingSaw := targets.length })⟩, false⟩) piece (Ne.symm other)
  have joined : enterPlace lead (false, m) pl = (false, joinTail .C (makeEntry .C (some y.tag) pos
      (writePiece { y with state := .beltC, lead := some pos } m)) (writePiece { y with state := .beltC, lead := some pos } m)) := by
    rw [enterPlace, if_neg Bool.false_ne_true, place]
    dsimp only
    rw [lookup_piece .ztr held]
  have armed := joinTail_armed (z := .C) (e := makeEntry .C (some y.tag) pos (writePiece { y with state := .beltC, lead := some pos } m))
    (p := writePiece { y with state := .beltC, lead := some pos } m) queue far
  rw [armed] at joined
  have places : ((x.plan.map (·.places)).getD []).foldl (enterPlace lead) (false, m) = enterPlace lead (false, m) pl := by
    rw [plan]
    rfl
  unfold schedule
  extract_lets flaps p₁ p₂ tracker p₃
  have sawn : p₁ = { p with
      acu.saw := targets.map fun t => ⟨t, x.tag⟩
      ztr.compares := p.ztr.compares ++ targets.map fun t => ⟨.saw t, t⟩ } := by
    simp only [p₁]
    rw [appendSaw_ahead ahead, saw]
    rfl
  clear_value p₁
  subst sawn
  have begun : p₃ = m := congrArg (fun es : List CutEntry => { m with ztr.cutList := insertCut ⟨x.tag, lead⟩ es }) cuts
  have cut : ¬ targets.isEmpty = true := by rw [List.isEmpty_iff]; exact some_cut
  rw [begun, places, joined, unlessCleared, if_neg Bool.false_ne_true]
  dsimp only
  rw [if_neg cut]
  rfl

/-! Which strips cannot be scheduled (R118, R121). -/

theorem recoveryReference_of {p : Part} {r : Nat} (h : (∃ z, p.acu.saw.getLast? = some z ∧ z.target = r)
    ∨ (p.acu.saw = [] ∧ p.acu.lastCut = some r)) : recoveryReference p = some r := by
  obtain ⟨z, last, target⟩ | ⟨empty, cut⟩ := h
  · rw [recoveryReference, last]
    exact congrArg some target
  · rw [recoveryReference, empty]
    exact cut

/-- A strip of one place that fails one of the five conditions. -/
theorem canSchedule_fails {x : Strip} {pl : PlanEntry} {value lead : Nat} {p : Part} (plan : x.plan = some ⟨value, [pl]⟩)
    (fails : 32 < p.acu.saw.length + (sawTargets x lead p).length ∨ 32 ≤ p.ztr.cutList.length
      ∨ (∃ a ∈ (sawTargets x lead p).head?, ∃ r, recoveryReference p = some r
        ∧ (ahead .C a r < p.ztr.geo.rSaw ∨ 8388608 ≤ ahead .C a r))
      ∨ (∃ a ∈ sawTargets x lead p, 8388608 ≤ ahead .C a (p.counter .C)) ∨ 64 ≤ (p.queue .C).length
      ∨ ∃ z ∈ (p.queue .C).getLast?, precedes .C z.lead (wrap .C (lead + pl.start)) = false) : canSchedule x lead p = false := by
  rw [Bool.eq_false_iff]
  intro can
  rw [canSchedule] at can
  simp only [Bool.and_eq_true, List.all_eq_true] at can
  obtain ⟨⟨⟨⟨room, listed⟩, recovery⟩, forward⟩, zone⟩ := can
  replace room : p.acu.saw.length + (sawTargets x lead p).length ≤ 32 := of_decide_eq_true room
  replace listed : p.ztr.cutList.length < 32 := of_decide_eq_true listed
  rw [zoneTakes, planSpans_single plan, firstLead, planSpans_single plan] at zone
  simp only [List.length_cons, List.length_nil, Nat.zero_add, queueCap, Config.queueCapCDE, Bool.and_eq_true, decide_eq_true_eq,
    List.head?_cons, Option.getD_some] at zone
  obtain ⟨space, order⟩ := zone
  obtain full | full | ⟨a, first, r, reference, near⟩ | ⟨a, target, late⟩ | full | ⟨z, last, unordered⟩ := fails
  · omega
  · omega
  · rw [recovered, Option.mem_def.1 first, reference] at recovery
    simp only [Bool.and_eq_true, decide_eq_true_eq, show halfModulus .C = 8388608 from rfl] at recovery
    omega
  · have on_time := forward a target
    rw [behind, show halfModulus .C = 8388608 from rfl, decide_eq_true late] at on_time
    cases on_time
  · omega
  · rw [Option.mem_def.1 last] at order
    exact Bool.false_ne_true (unordered.symm.trans order)

/-- Settles O21. -/
theorem cEyeSchedulesPlannedStrip : Obligations.CEyeSchedulesPlannedStrip := by
  have captured {x : Strip} {e : Entry} {s : State} (clear : s.part.ztr.eyeC.blocked = false) (valid : s.part.ztr.geoValid = true)
      (queue : s.part.queue .B = [e]) (tag : e.tag = some x.tag) (h : HoldsStrip x s.part)
      (window : inWindow .B (s.part.counter .B) e.expect e.half = true) :
      cEyeLeading s.part = cEyeStrip x (s.part.counter .C) (gone .B e (edgeC s.part)) := by
    rw [cEyeLeading_edge clear valid, captureC_strip (p := edgeC s.part) queue tag h window]
    rfl
  refine ⟨fun x y e value pl s r settled => ?_, fun x y e value len pl s r settled => ?_⟩
  · intro p n f cuts flaps pos v q rest clear valid queue tag h window planned plan place piece other saw cut cutList queueC some_cut ahead far
      at_once
    have body : cEyeLeading s.part = cEyeStrip x n (gone .B e (edgeC s.part)) := captured clear valid queue tag h window
    have targets : sawTargets x n (gone .B e (edgeC s.part)) = cuts := by
      rw [sawTargets, planSpans_single plan]
      rfl
    have intervals : flapTargets x n (gone .B e (edgeC s.part)) = flaps := by
      rw [flapTargets, planSpans_single plan]
      rfl
    have held : HoldsPiece y (gone .B e (edgeC s.part)) := HoldsPiece.congr (gone_rst .B e (edgeC s.part)) piece
    have can : canSchedule x n (gone .B e (edgeC s.part)) = true :=
      canSchedule_alone plan saw cut cutList queueC (by rw [targets]; exact ahead)
    have taken := schedule_alone (lead := n) plan place held other saw cutList queueC (by rw [targets]; exact some_cut)
      (by rw [targets]; exact ahead) far
    rw [targets, intervals] at taken
    refine completes_of_eq rfl r ?_ at_once
    rw [body, cEyeStrip, planned]
    dsimp only
    rw [if_pos can, taken]
    rfl
  · intro p n o t cuts reference fails q w wasted clear valid queue tag h window planned plan place piece state other lenB fail none_stands
      opens shuts idle delay
    have body : cEyeLeading s.part = cEyeStrip x n (gone .B e (edgeC s.part)) := captured clear valid queue tag h window
    have targets : sawTargets x n (gone .B e (edgeC s.part)) = cuts := by
      rw [sawTargets, planSpans_single plan, lenB]
      rfl
    have held : HoldsStrip x (gone .B e (edgeC s.part)) := HoldsStrip.congr (gone_rst .B e (edgeC s.part)) h
    have held' : HoldsPiece y (gone .B e (edgeC s.part)) := HoldsPiece.congr (gone_rst .B e (edgeC s.part)) piece
    have cannot : canSchedule x n (gone .B e (edgeC s.part)) = false := by
      refine canSchedule_fails plan ?_
      rw [targets]
      obtain full | full | ⟨a, first, r', known, near⟩ | late | full | unordered := fail
      · exact .inl full
      · exact .inr (.inl full)
      · exact .inr (.inr (.inl ⟨a, first, r', recoveryReference_of (p := gone .B e (edgeC s.part)) known, near⟩))
      · exact .inr (.inr (.inr (.inl late)))
      · exact .inr (.inr (.inr (.inr (.inl full))))
      · exact .inr (.inr (.inr (.inr (.inr unordered))))
    have left := cEyeStrip_unscheduled planned cannot held plan place held' state other lenB (o := o) (t := t) rfl rfl none_stands opens shuts
      idle delay
    have w_eq : wastes o t (cancel (.deadline x.tag) (leavePlanner x.tag (gone .B e (edgeC s.part)))) = w := rfl
    have at_once : w.ztr.atOnce = [] := cancel_atOnce (.deadline x.tag) (gone_atOnce e settled.1)
    rw [w_eq, ← body] at left
    have completes (k : Part) (k_eq : lessArea y.reserved y.area w = k) : wasted k := by
      have lif : (retireSlot (slotOf y.tag) (.piece .discarded) k).lif = p.lif := by
        rw [retireSlot_links, ← k_eq]
        cases y.reserved <;> rfl
      rw [k_eq] at left
      have done := completes_of_after (c := .cEyeLeadingEdge) (f := cEyeLeading) (s := s) rfl r left (by
        refine (retireSlot_atOnce _ _ _).trans ((retireSlot_atOnce _ _ _).trans ?_)
        rw [← k_eq]
        cases y.reserved <;> exact at_once)
      rw [countedRejected_retired (p := p) _ _ lif] at done
      exact done
    refine ⟨fun unreserved => completes w (by rw [unreserved]; rfl), fun a k reserved order => completes _ ?_⟩
    rw [reserved]
    show w.setOrder a ((w.order a).map _) = _
    rw [show w.order a = some k from order]
    rfl

end Sys2Proof.Machine

/-! PROOFS. Condemnation: what a double error in a live record's slot takes off the line (1.5, 1.6). -/

namespace Sys2Proof.Machine

open Sys2Proof

/-! The scrubber's pointer beside the other operations (R23). -/

theorem retireSlot_pointed (i n : SlotNo) (c : Retire) (p : Part) : retireSlot i c (pointed n p) = pointed n (retireSlot i c p) := by
  unfold retireSlot
  dsimp only
  rw [show (pointed n p).slot i = p.slot i from rfl]
  split
  · rfl
  · cases c <;> rfl

theorem gone_pointed (z : Zone) (e : Entry) (n : SlotNo) (p : Part) : gone z e (pointed n p) = pointed n (gone z e p) := by
  cases z
  case E =>
    unfold gone entryGone
    cases e.tag <;> rfl
  all_goals rfl

theorem lessArea_pointed (r : Option OrderNo) (area : Nat) (n : SlotNo) (p : Part) :
    lessArea r area (pointed n p) = pointed n (lessArea r area p) := by cases r <;> rfl

theorem compose_pointed (m : Notice) (n : SlotNo) (p : Part) : compose m (pointed n p) = pointed n (compose m p) := by
  unfold compose
  rw [show destLink m.dest (pointed n p) = destLink m.dest p by cases m.dest <;> rfl]
  split
  · rfl
  · unfold sendNotice transmit
    dsimp only
    rw [show ∀ l, (pointed n p).link l = p.link l from fun _ => rfl]
    split <;> rfl

theorem noteDamage_pointed (k : CaptureKind) (i n : SlotNo) (r : Reader) (p : Part) :
    noteDamage k i r (pointed n p) = pointed n (noteDamage k i r p) := by
  have taken : takeCapture k i (tagOf (p.slot i).shadow.gen i) r (pointed n p) =
      pointed n (takeCapture k i (tagOf (p.slot i).shadow.gen i) r p) := by
    unfold takeCapture
    cases h : p.rst.capture <;> simp only [pointed, h]
  unfold noteDamage
  dsimp only
  rw [show (pointed n p).slot i = p.slot i from rfl, taken]
  generalize takeCapture k i (tagOf (p.slot i).shadow.gen i) r p = q
  exact compose_pointed _ n { q with rst.damaged := bump q.rst.damaged }

/-! Damage noted (R17, R24, R26). -/

/-- Damage noted changes the capture, its counter, and the frames. -/
theorem noteDamage_blocks (k : CaptureKind) (i : SlotNo) (r : Reader) (p : Part) :
    (∀ j : SlotNo, (noteDamage k i r p).slot j = p.slot j) ∧ (noteDamage k i r p).ztr = p.ztr ∧ (noteDamage k i r p).acu = p.acu
      ∧ (noteDamage k i r p).ort = p.ort ∧ (noteDamage k i r p).bas = p.bas ∧ (noteDamage k i r p).cpl = p.cpl
      ∧ (noteDamage k i r p).lif.deferred = p.lif.deferred := by
  unfold noteDamage takeCapture
  dsimp only
  rw [compose_deferred, compose_lif]
  split <;> exact ⟨fun _ => rfl, rfl, rfl, rfl, rfl, rfl, rfl⟩

theorem HoldsStrip.of_slots {x : Strip} {p q : Part} (slots : ∀ j : SlotNo, q.slot j = p.slot j) (h : HoldsStrip x p) : HoldsStrip x q := by
  rwa [HoldsStrip, CleanSlot, slots]

theorem HoldsPiece.of_slots {y : Piece} {p q : Part} (slots : ∀ j : SlotNo, q.slot j = p.slot j) (h : HoldsPiece y p) : HoldsPiece y q := by
  rwa [HoldsPiece, CleanSlot, slots]

theorem queue_tracker {p q : Part} (h : q.ztr = p.ztr) (z : Zone) : q.queue z = p.queue z := by
  cases z <;> simp only [Part.queue, Part.zone, h]

/-! Pieces condemned (R19). -/

/-- A piece's shadow, undone where it is neither ASSIGNED nor PLANNED: its reservation and its zone's only entry. -/
theorem undoPiece_lone {t : Nat} {h : PieceShadow} {z : Zone} {e : Entry} {p : Part} (assigned : h.state ≠ .assigned)
    (zone : pieceZone h.state = some z) (queue : p.queue z = [e]) (tag : e.tag = some t) :
    undoPiece t h p = lessArea h.reserved h.area (gone z e p) := by
  have queue' : (lessArea h.reserved h.area p).queue z = [e] := by cases h.reserved <;> cases z <;> exact queue
  rw [undoPiece, if_neg assigned, zone]
  dsimp only
  rw [← gone_lessArea]
  exact removeTag_lone queue' tag

theorem undoPiece_planned {t : Nat} {h : PieceShadow} {p : Part} (planned : h.state = .planned) :
    undoPiece t h p = lessArea h.reserved h.area p := by
  rw [undoPiece, if_neg (by rw [planned]; decide), planned]
  rfl

theorem undoPiece_assigned {t : Nat} {h : PieceShadow} {b : BayNo} {u : Bundle} {r : Order} {e : Entry} {p : Part}
    (assigned : h.state = .assigned) (bay : h.bay = some b) (opened : (p.bay b).state = .opened) (bundle : (p.bay b).bundle = some u)
    (order : p.order u.slot = some r) (long : r.shortLength ≤ (h.foot - 2 * trimOf h.ctx p) / 10) (queue : p.queue .E = [e])
    (tag : e.tag = some t) : undoPiece t h p = kickCancelled t h.area b u r (gone .E e p) := by
  have undone : undoTransit b h.area ((h.foot - 2 * trimOf h.ctx p) / 10) (removeKick b t p) = kickCancelled t h.area b u r p := by
    rw [undoTransit_eq bundle order long, kickCancelled_opened opened]
  have queue' : (kickCancelled t h.area b u r p).queue .E = [e] := queue
  rw [undoPiece, if_pos assigned, bay, assigned]
  dsimp only [pieceZone]
  rw [undone, removeTag_lone queue' tag, gone_kickCancelled tag]

theorem trimOf_eq (c : CtxNo) (p : Part) : trimOf c p = (profileOf c p).trim := by
  rw [trimOf, profileOf]
  cases (p.ctx c).profile <;> rfl

/-- The shadow of a piece held in a clean slot. -/
theorem condemnPieceSlot_held {y : Piece} {p : Part} (cause : PieceRetire) (h : HoldsPiece y p) : ∃ k : PieceShadow,
    k.state = y.state ∧ k.reserved = y.reserved ∧ k.area = y.area
      ∧ condemnPieceSlot (slotOf y.tag) cause p = retire (slotOf y.tag) (.piece cause) (undoPiece y.tag k p) := by
  rw [condemnPieceSlot, shadowView_clean h.1, genView_clean h.1, h.2.1, h.2.2, tagOf_slotOf]
  exact ⟨_, rfl, rfl, rfl, rfl⟩

/-- The only piece of a condemned strip, read and condemned. -/
theorem condemnChildren_single {y : Piece} {t : Nat} {p : Part} (only : slotsWhere (isChildOf t) p = [slotOf y.tag]) (h : HoldsPiece y p) :
    condemnChildren t none p = (false, condemnPieceSlot (slotOf y.tag) .condemned p) := by
  rw [condemnChildren, only]
  simp only [List.filter_cons, List.filter_nil, List.foldl_cons, List.foldl_nil, bne_iff_ne, ne_eq, reduceCtorEq, not_false_eq_true, if_true]
  rw [condemnChild, if_neg Bool.false_ne_true, finding_clean h.1]
  dsimp only
  rw [repair_clean .rst h.1]

theorem condemnChildren_planned {y : Piece} {t : Nat} {p : Part} (only : slotsWhere (isChildOf t) p = [slotOf y.tag]) (h : HoldsPiece y p)
    (planned : y.state = .planned) : ∃ q, condemnChildren t none p = (false, q)
      ∧ After (retireSlot (slotOf y.tag) (.piece .condemned) (lessArea y.reserved y.area p)) q := by
  obtain ⟨k, state, reserved, area, condemned⟩ := condemnPieceSlot_held .condemned h
  rw [undoPiece_planned (state.trans planned), reserved, area] at condemned
  exact ⟨_, condemnChildren_single only h, by rw [condemned]; exact retire_after _ _ _⟩

theorem condemnChildren_belt {y : Piece} {t : Nat} {e : Entry} {p : Part} (only : slotsWhere (isChildOf t) p = [slotOf y.tag])
    (h : HoldsPiece y p) (belt : y.state = .beltC) (queue : p.queue .C = [e]) (tag : e.tag = some y.tag) :
    ∃ q, condemnChildren t none p = (false, q)
      ∧ After (retireSlot (slotOf y.tag) (.piece .condemned) (lessArea y.reserved y.area (gone .C e p))) q := by
  obtain ⟨k, state, reserved, area, condemned⟩ := condemnPieceSlot_held .condemned h
  rw [undoPiece_lone (z := .C) (by rw [state, belt]; decide) (by rw [state, belt]; rfl) queue tag, reserved, area] at condemned
  exact ⟨_, condemnChildren_single only h, by rw [condemned]; exact retire_after _ _ _⟩

/-! Strips condemned (R17, R18). -/

theorem retireSlot_gone (i : SlotNo) (c : Retire) (z : Zone) (e : Entry) (p : Part) :
    retireSlot i c (gone z e p) = gone z e (retireSlot i c p) := by
  have same : (gone z e p).slot i = p.slot i := slot_congr (gone_rst z e p) i
  unfold retireSlot
  dsimp only
  rw [same]
  split
  · rfl
  · cases c
    all_goals
      cases z
      case E =>
        unfold gone entryGone
        cases e.tag <;> rfl
      all_goals rfl

/-- The states in which a condemned strip leaves its zone with its deadline compare, and nothing else. -/
theorem condemnStrip_lone {i : SlotNo} {h : StripShadow} {z : Zone} {lead : Nat} {e : Entry} {p : Part}
    (body : (p.slot i).shadow.body = .strip h) (loc : h.loc = some (z, lead)) (queue : p.queue z = [e])
    (tag : e.tag = some (tagOf (p.slot i).shadow.gen i)) (mapped : h.state ≠ .mapped) (planned : h.state ≠ .planned)
    (cutting : h.state ≠ .cutting) : condemnStrip i none p =
      (false, retire i (.strip .damaged) (cancel (.deadline (tagOf (p.slot i).shadow.gen i)) (gone z e p))) := by
  have off : removeStripEntry (tagOf (p.slot i).shadow.gen i) h.loc p = gone z e p := by
    rw [loc]
    exact removeTag_lone queue tag
  rw [condemnStrip, body]
  dsimp only
  rw [off]
  split
  · next state => exact absurd state cutting
  · next state => exact absurd state planned
  · next state => exact absurd state mapped
  all_goals rfl

theorem condemnStrip_mapped {i : SlotNo} {h : StripShadow} {lead : Nat} {e : Entry} {p : Part}
    (body : (p.slot i).shadow.body = .strip h) (loc : h.loc = some (.B, lead)) (queue : p.queue .B = [e])
    (tag : e.tag = some (tagOf (p.slot i).shadow.gen i)) (mapped : h.state = .mapped) : condemnStrip i none p =
      (false, retire i (.strip .damaged) (cancel (.deadline (tagOf (p.slot i).shadow.gen i))
        (leavePlanner (tagOf (p.slot i).shadow.gen i) (gone .B e p)))) := by
  have off : removeStripEntry (tagOf (p.slot i).shadow.gen i) h.loc (leavePlanner (tagOf (p.slot i).shadow.gen i) p) =
      leavePlanner (tagOf (p.slot i).shadow.gen i) (gone .B e p) := by
    rw [loc]
    exact removeTag_lone (p := leavePlanner (tagOf (p.slot i).shadow.gen i) p) queue tag
  rw [condemnStrip, body]
  dsimp only
  rw [mapped]
  dsimp only
  rw [off]

theorem condemnStrip_planned {i : SlotNo} {h : StripShadow} {y : Piece} {lead : Nat} {e : Entry} {p : Part}
    (body : (p.slot i).shadow.body = .strip h) (loc : h.loc = some (.B, lead)) (queue : p.queue .B = [e])
    (tag : e.tag = some (tagOf (p.slot i).shadow.gen i)) (planned : h.state = .planned) (piece : HoldsPiece y p) (state : y.state = .planned)
    (only : slotsWhere (isChildOf (tagOf (p.slot i).shadow.gen i)) p = [slotOf y.tag]) : ∃ q, condemnStrip i none p = (false, q)
      ∧ After (retireSlot i (.strip .damaged) (retireSlot (slotOf y.tag) (.piece .condemned) (lessArea y.reserved y.area (gone .B e p)))) q := by
  obtain ⟨q, condemned, after⟩ := condemnChildren_planned only piece state
  have queue_q : q.queue .B = [e] := by
    rw [after.queue, (retireSlot_ahead _ _ _).2.2.2]
    cases y.reserved <;> exact queue
  have off : removeStripEntry (tagOf (p.slot i).shadow.gen i) h.loc q = gone .B e q := by
    rw [loc]
    exact removeTag_lone queue_q tag
  refine ⟨retire i (.strip .damaged) (gone .B e q), ?_, ?_⟩
  · rw [condemnStrip, body]
    dsimp only
    rw [planned]
    dsimp only
    rw [condemned]
    dsimp only
    rw [if_neg Bool.false_ne_true, off]
  · have left := (after.gone .B e).retire i (.strip .damaged)
    rw [← retireSlot_gone, gone_lessArea] at left
    exact left

/-- A CUTTING strip condemned, its piece of zone C with it, and what remains of it wasted. -/
theorem condemnStrip_cutting {i : SlotNo} {h : StripShadow} {y : Piece} {lead len target o t : Nat} {e : Entry} {p : Part}
    (body : (p.slot i).shadow.body = .strip h) (loc : h.loc = some (.C, lead)) (length : h.length = some len)
    (cuts : p.ztr.cutList = [⟨tagOf (p.slot i).shadow.gen i, lead⟩]) (saw : p.acu.saw = [⟨target, tagOf (p.slot i).shadow.gen i⟩])
    (queue : p.queue .C = [e]) (tag : e.tag = some y.tag) (cutting : h.state = .cutting) (piece : HoldsPiece y p) (belt : y.state = .beltC)
    (only : slotsWhere (isChildOf (tagOf (p.slot i).shadow.gen i)) p = [slotOf y.tag]) (none_stands : p.acu.waste = [])
    (opened : minus .C (lead + p.ztr.geo.dFlap) p.ztr.geo.pFlap = o) (shut : minus .C (lead + p.ztr.geo.dFlap + len) p.ztr.geo.pFlap = t)
    (opens : strictlyAhead .C o (p.counter .C) = true) (shuts : strictlyAhead .C t (p.counter .C) = true) :
    ∃ q, condemnStrip i none p = (false, q)
      ∧ After (retireSlot i (.strip .damaged) (retireSlot (slotOf y.tag) (.piece .condemned) (lessArea y.reserved y.area (wastes o t
        { cancel (.expiry .C) (cancel (.saw target) (p.setQueue .C [])) with ztr.cutList := [], acu.saw := [] })))) q := by
  let m : Part := { cancel (.saw target) p with acu.saw := [] }
  let off : Part := gone .C e m
  let n := retireSlot (slotOf y.tag) (.piece .condemned) (lessArea y.reserved y.area off)
  obtain ⟨q, condemned, after⟩ := condemnChildren_belt (p := m) only piece belt queue tag
  have blocks : n.ztr.geo = p.ztr.geo ∧ n.acu.waste = [] ∧ n.counter .C = p.counter .C ∧ n.ztr.cutList = p.ztr.cutList := by
    have retired : n.ztr.geo = (lessArea y.reserved y.area off).ztr.geo ∧ n.acu = (lessArea y.reserved y.area off).acu
        ∧ n.counter .C = (lessArea y.reserved y.area off).counter .C ∧ n.ztr.cutList = (lessArea y.reserved y.area off).ztr.cutList := by
      simp only [n]
      unfold retireSlot
      dsimp only
      split
      · exact ⟨rfl, rfl, rfl, rfl⟩
      · exact ⟨rfl, rfl, rfl, rfl⟩
    obtain ⟨geo, acu, counter, cutList⟩ := retired
    rw [geo, acu, counter, cutList]
    cases y.reserved <;> exact ⟨rfl, none_stands, rfl, rfl⟩
  obtain ⟨geo, waste, counter, cutList⟩ := blocks
  have ztr : q.ztr = n.ztr := after.1.2.2.1
  have acu : q.acu = n.acu := after.1.2.2.2.1
  have counter_q : q.counter .C = p.counter .C := by rw [← counter, Part.counter, Part.zone, ztr]; rfl
  have wasted : wasteWhole lead h.length q = wastes o t q := by
    rw [wasteWhole, length, Option.map_some, wholeOpen, wholeShut, ztr, geo, opened, shut]
    exact enterWaste_closed (by rw [acu, waste]) (by rw [counter_q]; exact opens) (by rw [counter_q]; exact shuts)
  refine ⟨retire i (.strip .damaged) (leaveCutList (tagOf (p.slot i).shadow.gen i) (wastes o t q)), ?_, ?_⟩
  · have stopped : cancelSaw (tagOf (p.slot i).shadow.gen i) p = m := cancelSaw_lone saw
    rw [condemnStrip, body]
    dsimp only
    rw [cutting]
    dsimp only
    rw [stopped, condemned]
    dsimp only
    rw [if_neg Bool.false_ne_true, loc]
    dsimp only
    rw [wasted]
  · have left := (after.map (f := fun q => leaveCutList (tagOf (p.slot i).shadow.gen i) (wastes o t q)) (fun _ _ _ _ _ _ => rfl)
      fun _ => rfl).retire i (.strip .damaged)
    have cut : leaveCutList (tagOf (p.slot i).shadow.gen i) (wastes o t n) = { wastes o t n with ztr.cutList := [] } := by
      rw [leaveCutList, show (wastes o t n).ztr.cutList = [⟨tagOf (p.slot i).shadow.gen i, lead⟩] from cutList.trans cuts]
      simp
    rw [cut] at left
    have gathered : ({ wastes o t n with ztr.cutList := [] } : Part) = retireSlot (slotOf y.tag) (.piece .condemned) (lessArea y.reserved y.area
        (wastes o t { cancel (.expiry .C) (cancel (.saw target) (p.setQueue .C [])) with ztr.cutList := [], acu.saw := [] })) := by
      rw [show wastes o t n = retireSlot (slotOf y.tag) (.piece .condemned) (wastes o t (lessArea y.reserved y.area off)) from
        (retireSlot_wastes _ _ _ _ _).symm, ← retireSlot_cutList]
      cases y.reserved <;> rfl
    rw [gathered] at left
    exact left

end Sys2Proof.Machine

/-! PROOFS. The scrubber finds a double error: condemnation, or a LINE CLEAR of the part's own (1.5, 1.6, 1.8). -/

namespace Sys2Proof.Machine

open Sys2Proof

/-! What the scrubber's read finds (Table 1-8). -/

theorem finding_damaged {x : Slot} (check : x.check = .double) (parity : x.parityBad = false) (live : x.shadow.body ≠ .nothing) :
    finding x = .damaged := by
  rw [finding, if_pos check, parity, if_neg Bool.false_ne_true, if_neg live]

theorem finding_double {x : Slot} (check : x.check = .double) (parity : x.parityBad = true) : finding x = .double := by
  rw [finding, if_pos check, if_pos parity]

theorem readSlot_strip {i : SlotNo} {r : Reader} {h : StripShadow} {p : Part} (check : (p.slot i).check = .double)
    (parity : (p.slot i).parityBad = false) (body : (p.slot i).shadow.body = .strip h) :
    (readSlot i r p).2 = (condemnStrip i none (noteDamage .damaged i r p)).2 := by
  rw [readSlot, finding_damaged check parity (by rw [body]; exact nofun)]
  dsimp only
  rw [condemn, body]

theorem readSlot_piece {i : SlotNo} {r : Reader} {h : PieceShadow} {p : Part} (check : (p.slot i).check = .double)
    (parity : (p.slot i).parityBad = false) (body : (p.slot i).shadow.body = .piece h) :
    (readSlot i r p).2 = (condemnPiece i h (noteDamage .damaged i r p)).2 := by
  rw [readSlot, finding_damaged check parity (by rw [body]; exact nofun)]
  dsimp only
  rw [condemn, body]

theorem readSlot_double {i : SlotNo} {r : Reader} {p : Part} (check : (p.slot i).check = .double) (parity : (p.slot i).parityBad = true) :
    (readSlot i r p).2 = lineClear (some i) none (noteDamage .double i r p) := by
  rw [readSlot, finding_double check parity]
  rfl

/-- The scrubber's command, from what its read comes to. -/
theorem scrub_completes {s : State} {e m : Part} (running : Running s.part) (at_once : m.ztr.atOnce = [])
    (after : After m (readSlot s.part.rst.scrubPtr .rst s.part).2) (shape : e = pointed (s.part.rst.scrubPtr + 1) m) :
    Completes .scrubRead s e := by
  rw [shape]
  exact completes_of_after rfl running
    (after.map (f := pointed (s.part.rst.scrubPtr + 1)) (fun _ _ _ _ _ _ => rfl) fun _ => rfl) at_once

/-- A live slot's retirement where its main contents are lost and its shadow is good. -/
theorem retireSlot_damaged {i : SlotNo} {c : CtxNo} {cause : Retire} {p : Part} (check : (p.slot i).check = .double)
    (parity : (p.slot i).parityBad = false) (bound : shadowCtx (p.slot i).shadow.body = some c) :
    retireSlot i cause p =
      { changeRefs (· - 1) c (countRetire cause (p.setSlot i (rewritten (p.slot i).shadow.gen .nothing))) with
        rst.free := p.rst.free ++ [i]
        ztr.itemA := dropItem (tagOf (p.slot i).shadow.gen i) p.ztr.itemA
        ztr.itemB := dropItem (tagOf (p.slot i).shadow.gen i) p.ztr.itemB } := by
  have view : shadowView (p.slot i) = (p.slot i).shadow.body := by rw [shadowView, parity]; rfl
  have gen : genView (p.slot i) = (p.slot i).shadow.gen := by rw [genView, if_pos check]
  unfold retireSlot
  dsimp only
  rw [view, bound, gen]
  cases cause <;> rfl

/-- Damage noted with the capture empty and the supervisor listening. -/
theorem noteDamage_fresh {k : CaptureKind} {i : SlotNo} {r : Reader} {p : Part} (empty : p.rst.capture = none)
    (few : p.rst.damaged < 4294967295) (up : (p.link 0).state = .up) (room : (p.link 0).transmit.length < 56) :
    let tag := tagOf (p.slot i).shadow.gen i
    noteDamage k i r p = { p with
      rst.damaged := p.rst.damaged + 1
      rst.capture := some ⟨k, i, tag, r⟩
      lif.link := p.lif.link.set 0 { p.link 0 with
        transmit := (p.link 0).transmit ++ [⟨.notice, codeERRNTC, 0, captureItems ⟨k, i, tag, r⟩⟩] } } := by
  intro tag
  rw [noteDamage]
  dsimp only
  rw [takeCapture_none empty, compose_supervisor (by exact up) (by exact room)]
  dsimp only
  rw [bump_of_lt few]
  rfl

/-! LINE CLEAR of the part's own (R22). -/

theorem lineClear_automatic_clean (i : SlotNo) (reply : Option Nat) (p : Part) (j : SlotNo) : CleanSlot j (lineClear (some i) reply p) := by
  obtain ⟨c, started, auto, -⟩ := startClear_clear true reply p
  obtain ⟨-, -, -, -, -, -, -, lif'⟩ := queuesCleared_blocks (some i) reply p
  have cleared := clearBays_cleared (queuesCleared (some i) reply p)
  rw [lineClear_eq]
  generalize queuesCleared (some i) reply p = m at *
  generalize clearBays m = n at *
  obtain ⟨d, found, same⟩ := cleared.clear c (by rw [lif']; exact started)
  obtain ⟨k, kept, stays⟩ := (clearStore_work (some i) n).clear d found
  have automatic : clearIsAuto (clearStore (some i) n) = true := by
    rw [clearIsAuto, kept]
    exact stays (same.trans (auto rfl))
  exact rewriteEvery_clean automatic j

theorem LineCleared.pointed {n : SlotNo} {p : Part} (h : LineCleared p) : LineCleared (pointed n p) :=
  ⟨fun z => (by cases z <;> rfl : (Machine.pointed n p).queue z = p.queue z).trans (h.queues z), h.tracker, h.planner, h.actions, h.slots,
    h.contexts, h.orders, h.bundles⟩

/-- What an automatic LINE CLEAR leaves behind the scrubber's read, whatever the slots held. -/
theorem scrub_clears {s : State} (running : Running s.part) (settled : Settled s.part)
    (check : (s.part.slot s.part.rst.scrubPtr).check = .double) (parity : (s.part.slot s.part.rst.scrubPtr).parityBad = true) :
    let q := lineClear (some s.part.rst.scrubPtr) none (noteDamage .double s.part.rst.scrubPtr .rst s.part)
    Completes .scrubRead s (pointed (s.part.rst.scrubPtr + 1) q) ∧ LineWork (some s.part.rst.scrubPtr)
      (noteDamage .double s.part.rst.scrubPtr .rst s.part) q := by
  intro q
  have work := lineClear_work (some s.part.rst.scrubPtr) none (noteDamage .double s.part.rst.scrubPtr .rst s.part)
  have at_once : q.ztr.atOnce = [] := by
    have tracker : q.ztr = (clearTracker s.part).ztr := work.tracker.trans (clearTracker_congr (noteDamage_blocks _ _ _ _).2.1)
    rw [tracker]
    exact (congrArg (List.filter _) settled.1).trans List.filter_nil
  exact ⟨scrub_completes running at_once (by rw [readSlot_double check parity]; exact .refl q) rfl, work⟩

end Sys2Proof.Machine

/-! PROOFS. Double errors settle their obligation (1.5, 1.6, 1.8). -/

namespace Sys2Proof.Machine

open Sys2Proof

/-- The scrubber's command where its read condemns a strip. -/
theorem scrub_condemnsStrip {s : State} {h : StripShadow} {d e m q : Part} (running : Running s.part)
    (check : (s.part.slot s.part.rst.scrubPtr).check = .double) (parity : (s.part.slot s.part.rst.scrubPtr).parityBad = false)
    (body : (s.part.slot s.part.rst.scrubPtr).shadow.body = .strip h) (settled : Settled m)
    (noted : noteDamage .damaged s.part.rst.scrubPtr .rst s.part = d) (condemned : condemnStrip s.part.rst.scrubPtr none d = (false, q)) (after : After m q)
    (shape : e = pointed (s.part.rst.scrubPtr + 1) m) : Completes .scrubRead s e :=
  scrub_completes running settled.1 (by rw [readSlot_strip check parity body, noted, condemned]; exact after) shape

/-- The scrubber's command where its read condemns a piece. -/
theorem scrub_condemnsPiece {s : State} {h : PieceShadow} {d e m q : Part} (running : Running s.part)
    (check : (s.part.slot s.part.rst.scrubPtr).check = .double) (parity : (s.part.slot s.part.rst.scrubPtr).parityBad = false)
    (body : (s.part.slot s.part.rst.scrubPtr).shadow.body = .piece h) (settled : Settled m)
    (noted : noteDamage .damaged s.part.rst.scrubPtr .rst s.part = d) (condemned : condemnPiece s.part.rst.scrubPtr h d = (false, q)) (after : After m q)
    (shape : e = pointed (s.part.rst.scrubPtr + 1) m) : Completes .scrubRead s e :=
  scrub_completes running settled.1 (by rw [readSlot_piece check parity body, noted, condemned]; exact after) shape

theorem noteDamage_settled {k : CaptureKind} {i : SlotNo} {r : Reader} {p : Part} (h : Settled p) : Settled (noteDamage k i r p) := by
  obtain ⟨-, ztr, -, -, -, -, deferred⟩ := noteDamage_blocks k i r p
  exact ⟨by rw [ztr]; exact h.1, deferred.trans h.2⟩

theorem condemnPiece_belt {i : SlotNo} {h : PieceShadow} {p : Part} (planned : h.state ≠ .planned) :
    condemnPiece i h p = (false, retire i (.piece .damaged) (undoPiece (tagOf (p.slot i).shadow.gen i) h p)) := by
  rw [condemnPiece]
  dsimp only
  rw [if_neg planned]
  rfl

/-- A PLANNED piece condemned: its place in the parent's plan is void. -/
theorem condemnPiece_planned {i : SlotNo} {h : PieceShadow} {x : Strip} {pl : PlanEntry} {value : Nat} {p : Part} (planned : h.state = .planned)
    (parent : h.parent = x.tag) (strip : HoldsStrip x p) (plan : x.plan = some ⟨value, [pl]⟩)
    (tag : pl.tag = some (tagOf (p.slot i).shadow.gen i)) :
    condemnPiece i h p = (false, retire i (.piece .damaged)
      (writeStrip { x with plan := some ⟨value, [{ pl with tag := none }]⟩ } (lessArea h.reserved h.area p))) := by
  rw [condemnPiece]
  dsimp only
  rw [if_pos planned, undoPiece_planned planned, parent, voidPlace_single .rst _ (strip.congr (lessArea_rst _ _ _)) plan tag]
  rfl

theorem countRetire_damaged {p : Part} (few : p.rst.stripRetired[5] < 4294967295) :
    countRetire (.strip .damaged) p = { p with rst.stripRetired := p.rst.stripRetired.set 5 (p.rst.stripRetired[5] + 1) } := by
  rw [← bump_of_lt few]
  rfl

/-- A strip of ENTERING_B or SCANNING retired for damage, its contents lost: what the part holds then. -/
theorem retireSlot_lost {i : SlotNo} {h : StripShadow} {e : Entry} {p : Part} (check : (p.slot i).check = .double)
    (parity : (p.slot i).parityBad = false) (body : (p.slot i).shadow.body = .strip h) (empty : p.rst.capture = none)
    (few : p.rst.damaged < 4294967295) (rarely : p.rst.stripRetired[5] < 4294967295) (up : (p.link 0).state = .up)
    (room : (p.link 0).transmit.length < 56) :
    let gen := (p.slot i).shadow.gen
    let tag := gen * 1024 + i.val
    let q := cancel (.deadline tag) (gone .B e p)
    retireSlot i (.strip .damaged) (cancel (.deadline tag) (gone .B e (noteDamage .damaged i .rst p))) =
      { (q.setSlot i ⟨gen, .nothing, .good, ⟨gen, .nothing⟩, false⟩).setCtx h.ctx { q.ctx h.ctx with refs := (q.ctx h.ctx).refs - 1 } with
        rst.free := q.rst.free ++ [i]
        rst.damaged := q.rst.damaged + 1
        rst.stripRetired := q.rst.stripRetired.set 5 (q.rst.stripRetired[5] + 1)
        rst.capture := some ⟨.damaged, i, tag, .rst⟩
        ztr.itemA := if q.ztr.itemA = .tag tag then .none else q.ztr.itemA
        ztr.itemB := if q.ztr.itemB = .tag tag then .none else q.ztr.itemB
        lif.link := q.lif.link.set 0 { q.link 0 with
          transmit := (q.link 0).transmit ++ [⟨.notice, 0x86, 0, [.u8 1, .u16 i.val, .u16 tag, .u8 0]⟩] } } := by
  intro gen tag q
  rw [noteDamage_fresh empty few up room]
  rw [retireSlot_damaged (c := h.ctx) (by exact check) (by exact parity) (by
    show shadowCtx (p.slot i).shadow.body = _
    rw [body]
    rfl)]
  rw [countRetire_damaged (by exact rarely)]
  rfl

/-- Clause of O34: a damaged strip in each state. -/
theorem damagedStrip_condemned {h : StripShadow} {e : Entry} {lead : Nat} {s : State} {p : Part} (running : Running s.part) (settled : Settled s.part)
    (check : (s.part.slot s.part.rst.scrubPtr).check = .double) (parity : (s.part.slot s.part.rst.scrubPtr).parityBad = false)
    (body : (s.part.slot s.part.rst.scrubPtr).shadow.body = .strip h)
    (noted : noteDamage .damaged s.part.rst.scrubPtr .rst (pointed (s.part.rst.scrubPtr + 1) s.part) = p) :
    let i := s.part.rst.scrubPtr
    let tag := tagOf (s.part.slot i).shadow.gen i
    let retired := fun q : Part => Completes .scrubRead s (retireSlot i (.strip .damaged) q)
    (∀ z : Zone, h.state ≠ .mapped → h.state ≠ .planned → h.state ≠ .cutting → h.loc = some (z, lead) → s.part.queue z = [e] →
      e.tag = some tag → retired (cancel (.deadline tag) (gone z e p)))
    ∧ (h.loc = some (.B, lead) → s.part.queue .B = [e] → e.tag = some tag →
      (h.state = .mapped → retired (cancel (.deadline tag) (leavePlanner tag (gone .B e p))))
      ∧ (∀ y : Piece, h.state = .planned → HoldsPiece y s.part → y.state = .planned → slotsWhere (isChildOf tag) p = [slotOf y.tag] →
        retired (retireSlot (slotOf y.tag) (.piece .condemned) (lessArea y.reserved y.area (gone .B e p)))))
    ∧ (∀ (y : Piece) (len target o t : Nat), h.state = .cutting → h.loc = some (.C, lead) → h.length = some len →
      s.part.ztr.cutList = [⟨tag, lead⟩] → s.part.acu.saw = [⟨target, tag⟩] → HoldsPiece y s.part → y.state = .beltC →
      slotsWhere (isChildOf tag) p = [slotOf y.tag] → s.part.queue .C = [e] → e.tag = some y.tag → s.part.acu.waste = [] →
      minus .C (lead + p.ztr.geo.dFlap) p.ztr.geo.pFlap = o → minus .C (lead + p.ztr.geo.dFlap + len) p.ztr.geo.pFlap = t →
      strictlyAhead .C o (p.counter .C) = true → strictlyAhead .C t (p.counter .C) = true →
      retired (retireSlot (slotOf y.tag) (.piece .condemned) (lessArea y.reserved y.area (wastes o t
        { cancel (.expiry .C) (cancel (.saw target) (p.setQueue .C [])) with ztr.cutList := [], acu.saw := [] })))) := by
  intro i tag retired
  have shows : p = pointed (i + 1) (noteDamage .damaged i .rst s.part) := noted.symm.trans (noteDamage_pointed _ _ _ _ _)
  have steady : Settled (noteDamage .damaged i .rst s.part) := noteDamage_settled settled
  obtain ⟨slots, ztr, acu, -⟩ := noteDamage_blocks .damaged i .rst s.part
  clear noted
  obtain ⟨d, noted⟩ : ∃ d, noteDamage .damaged i .rst s.part = d := ⟨_, rfl⟩
  rw [noted] at shows steady slots ztr acu
  have body' : (d.slot i).shadow.body = .strip h := by rw [slots i]; exact body
  have tag' : tagOf (d.slot i).shadow.gen i = tag := by rw [slots i]
  have queues : ∀ z, d.queue z = s.part.queue z := queue_tracker ztr
  subst shows
  refine ⟨fun z mapped planned cutting loc queue named => ?_, fun loc queue named => ⟨fun mapped => ?_, fun y planned piece state only => ?_⟩,
    fun y len target o t cutting loc length cuts saw piece belt only queue named none_stands opened shut opens shuts => ?_⟩
  · have condemned := condemnStrip_lone body' loc ((queues z).trans queue) (named.trans (congrArg some tag'.symm)) mapped planned cutting
    rw [tag'] at condemned
    refine scrub_condemnsStrip running check parity body (retireSlot_settled (cancel_settled (gone_settled steady))) noted condemned
      (retire_after _ _ _) ?_
    rw [← retireSlot_pointed, gone_pointed]
    rfl
  · have condemned := condemnStrip_mapped body' loc ((queues .B).trans queue) (named.trans (congrArg some tag'.symm)) mapped
    rw [tag'] at condemned
    refine scrub_condemnsStrip (m := retireSlot i (.strip .damaged) (cancel (.deadline tag) (leavePlanner tag (gone .B e d)))) running check parity body
      (retireSlot_settled (cancel_settled (gone_settled (z := .B) (e := e) steady))) noted condemned (retire_after _ _ _) ?_
    rw [← retireSlot_pointed]
    rfl
  · obtain ⟨q, condemned, after⟩ := condemnStrip_planned body' loc ((queues .B).trans queue) (named.trans (congrArg some tag'.symm)) planned
      (piece.of_slots slots) state (by rw [tag']; exact only)
    refine scrub_condemnsStrip running check parity body (retireSlot_settled (retireSlot_settled (lessArea_settled _ _ (gone_settled steady))))
      noted condemned after ?_
    rw [← retireSlot_pointed, ← retireSlot_pointed, ← lessArea_pointed, ← gone_pointed]
  · obtain ⟨q, condemned, after⟩ := condemnStrip_cutting (p := d) body' loc length (by rw [ztr, tag']; exact cuts) (by rw [acu, tag']; exact saw)
      ((queues .C).trans queue) named cutting (piece.of_slots slots) belt (by rw [tag']; exact only) (by rw [acu]; exact none_stands)
      opened shut opens shuts
    have settled_w : Settled (wastes o t { cancel (.expiry .C) (cancel (.saw target) (d.setQueue .C [])) with ztr.cutList := [], acu.saw := [] }) :=
      ⟨cancel_atOnce (.expiry .C) (cancel_atOnce (.saw target) (p := d.setQueue .C []) steady.1), steady.2⟩
    have moved : wastes o t { cancel (.expiry .C) (cancel (.saw target) ((pointed (i + 1) d).setQueue .C [])) with ztr.cutList := [], acu.saw := [] } =
        pointed (i + 1) (wastes o t { cancel (.expiry .C) (cancel (.saw target) (d.setQueue .C [])) with ztr.cutList := [], acu.saw := [] }) := rfl
    rw [moved]
    generalize wastes o t { cancel (.expiry .C) (cancel (.saw target) (d.setQueue .C [])) with ztr.cutList := [], acu.saw := [] } = w at *
    refine scrub_condemnsStrip running check parity body (retireSlot_settled (retireSlot_settled (lessArea_settled _ _ settled_w))) noted condemned
      after ?_
    rw [← retireSlot_pointed, ← retireSlot_pointed, ← lessArea_pointed]

/-- Clause of O34: a damaged piece in each state. -/
theorem damagedPiece_condemned {h : PieceShadow} {e : Entry} {lead : Nat} {s : State} {p : Part} (running : Running s.part) (settled : Settled s.part)
    (check : (s.part.slot s.part.rst.scrubPtr).check = .double) (parity : (s.part.slot s.part.rst.scrubPtr).parityBad = false)
    (body : (s.part.slot s.part.rst.scrubPtr).shadow.body = .piece h)
    (noted : noteDamage .damaged s.part.rst.scrubPtr .rst (pointed (s.part.rst.scrubPtr + 1) s.part) = p) :
    let i := s.part.rst.scrubPtr
    let tag := tagOf (s.part.slot i).shadow.gen i
    let retired := fun q : Part => Completes .scrubRead s (retireSlot i (.piece .damaged) q)
    (∀ z : Zone, h.state ≠ .assigned → h.state ≠ .planned → pieceZone h.state = some z → s.part.queue z = [e] → e.tag = some tag →
      retired (lessArea h.reserved h.area (gone z e p)))
    ∧ (∀ (b : BayNo) (u : Bundle) (r : Order), h.state = .assigned → h.loc = some (.E, lead) → h.bay = some b → s.part.queue .E = [e] →
      e.tag = some tag → (p.bay b).state = .opened → (p.bay b).bundle = some u → p.order u.slot = some r →
      r.shortLength ≤ (h.foot - 2 * (profileOf h.ctx p).trim) / 10 → retired (kickCancelled tag h.area b u r (gone .E e p)))
    ∧ (∀ (x : Strip) (pl : PlanEntry) (value : Nat), h.state = .planned → h.parent = x.tag → HoldsStrip x s.part →
      x.plan = some ⟨value, [pl]⟩ → pl.tag = some tag →
      retired (writeStrip { x with plan := some ⟨value, [{ pl with tag := none }]⟩ } (lessArea h.reserved h.area p))) := by
  intro i tag retired
  have shows : p = pointed (i + 1) (noteDamage .damaged i .rst s.part) := noted.symm.trans (noteDamage_pointed _ _ _ _ _)
  have steady : Settled (noteDamage .damaged i .rst s.part) := noteDamage_settled settled
  obtain ⟨slots, ztr, -, -, -, -, -⟩ := noteDamage_blocks .damaged i .rst s.part
  clear noted
  obtain ⟨d, noted⟩ : ∃ d, noteDamage .damaged i .rst s.part = d := ⟨_, rfl⟩
  rw [noted] at shows steady slots ztr
  have tag' : tagOf (d.slot i).shadow.gen i = tag := by rw [slots i]
  have queues : ∀ z, d.queue z = s.part.queue z := queue_tracker ztr
  subst shows
  refine ⟨fun z assigned planned zone queue named => ?_, fun b u r assigned _ bay queue named opened bundle order long => ?_,
    fun x pl value planned parent strip plan named => ?_⟩
  · have condemned := condemnPiece_belt (i := i) (p := d) planned
    rw [tag', undoPiece_lone assigned zone ((queues z).trans queue) named] at condemned
    refine scrub_condemnsPiece running check parity body (retireSlot_settled (lessArea_settled _ _ (gone_settled steady))) noted condemned
      (retire_after _ _ _) ?_
    rw [← retireSlot_pointed, ← lessArea_pointed, ← gone_pointed]
  · have condemned := condemnPiece_belt (i := i) (h := h) (p := d) (by rw [assigned]; decide)
    rw [tag', undoPiece_assigned (p := d) assigned bay opened bundle order (by rw [trimOf_eq]; exact long) ((queues .E).trans queue) named] at condemned
    have steady_k : Settled (kickCancelled tag h.area b u r (gone .E e d)) := cancel_settled (e := .kick b tag) (gone_settled steady)
    refine scrub_condemnsPiece running check parity body (retireSlot_settled steady_k) noted condemned (retire_after _ _ _) ?_
    rw [← retireSlot_pointed, gone_pointed]
    rfl
  · have condemned := condemnPiece_planned (i := i) (p := d) planned parent (strip.of_slots slots) plan (named.trans (congrArg some tag'.symm))
    refine scrub_condemnsPiece running check parity body (retireSlot_settled (by exact lessArea_settled _ _ steady)) noted condemned
      (retire_after _ _ _) ?_
    rw [← retireSlot_pointed, lessArea_pointed]
    rfl

/-- Damage noted with no record captured stands captured. -/
theorem noteDamage_capture {k : CaptureKind} {i : SlotNo} {r : Reader} {p : Part} (h : p.rst.capture = none) :
    (noteDamage k i r p).rst.capture = some ⟨k, i, tagOf (p.slot i).shadow.gen i, r⟩ := by
  rw [noteDamage]
  dsimp only
  rw [takeCapture_none h, compose_lif]

/-- Settles O34. -/
theorem doubleErrorsCondemnOrClear : Obligations.DoubleErrorsCondemnOrClear := by
  refine ⟨fun h e lead s running settled => ?_, fun h e lead s running settled => ?_, fun h e lead s running settled => ?_,
    fun s running settled check parity empty => ?_, fun s running settled check parity laws => ?_⟩
  · intro i gen tag p check parity body state loc queue named empty few rarely up room
    have condemned := (damagedStrip_condemned (e := e) (lead := lead) running settled check parity body rfl).1 .B
      (by rcases state with h | h <;> rw [h] <;> decide) (by rcases state with h | h <;> rw [h] <;> decide)
      (by rcases state with h | h <;> rw [h] <;> decide) loc queue named
    rw [noteDamage_pointed, gone_pointed] at condemned
    have shape := (retireSlot_pointed i (i + 1) (.strip .damaged) (cancel (.deadline tag) (gone .B e (noteDamage .damaged i .rst s.part)))).trans
      (congrArg (pointed (i + 1)) (retireSlot_lost (e := e) check parity body empty few rarely up room))
    exact (congrArg (Completes .scrubRead s) shape).mp condemned
  · intro i tag p retired off less check parity body
    obtain ⟨lone, inB, cut⟩ := damagedStrip_condemned (e := e) (lead := lead) running settled check parity body (p := p) rfl
    clear_value p
    refine ⟨fun z states loc queue named => ?_, fun loc queue named => ⟨fun mapped => ?_, fun planning => ?_, fun y planned piece state _ only => ?_⟩,
      fun y len target cutting loc length cuts saw piece belt _ only queue named none_stands => ?_⟩
    · have cases : h.state ≠ .mapped ∧ h.state ≠ .planned ∧ h.state ≠ .cutting := by
        simp only [List.mem_cons, Prod.mk.injEq, List.not_mem_nil, or_false] at states
        rcases states with ⟨state, -⟩ | ⟨state, -⟩ | ⟨state, -⟩ | ⟨state, -⟩ <;> rw [state] <;> decide
      have condemned := lone z cases.1 cases.2.1 cases.2.2 loc queue named
      have plain : z = .A ∨ z = .B := by
        simp only [List.mem_cons, Prod.mk.injEq, List.not_mem_nil, or_false] at states
        rcases states with ⟨-, zone⟩ | ⟨-, zone⟩ | ⟨-, zone⟩ | ⟨-, zone⟩ <;> simp [zone]
      rcases plain with rfl | rfl <;> exact condemned
    · exact inB loc queue named |>.1 mapped
    · exact lone .B (by rw [planning]; decide) (by rw [planning]; decide) (by rw [planning]; decide) loc queue named
    · exact (inB loc queue named).2 y planned piece state only
    · intro o t q opens shuts
      exact cut y len target o t cutting loc length cuts saw piece belt only queue named none_stands rfl rfl opens shuts
  · intro i tag p retired off less check parity body
    obtain ⟨lone, assigned, planned⟩ := damagedPiece_condemned (e := e) (lead := lead) running settled check parity body (p := p) rfl
    clear_value p
    refine ⟨fun z states loc queue named => ?_, fun b u r state loc bay queue named opened bundle order long => ?_,
      fun x pl value state _ parent strip _ plan named => ?_⟩
    · have zones : h.state ≠ .assigned ∧ h.state ≠ .planned ∧ pieceZone h.state = some z := by
        simp only [List.mem_cons, Prod.mk.injEq, List.not_mem_nil, or_false] at states
        rcases states with ⟨state, rfl⟩ | ⟨state, rfl⟩ | ⟨state, rfl⟩ | ⟨state, rfl⟩ <;> rw [state] <;> decide
      exact lone z zones.1 zones.2.1 zones.2.2 queue named
    · have condemned := assigned b u r state loc bay queue named opened bundle order long
      have sorted : off .E = gone .E e p := rfl
      rw [gone_sorted named] at condemned sorted
      rw [sorted]
      exact condemned
    · exact planned x pl value state parent strip plan named
  · obtain ⟨⟨t, done, pending, after⟩, work⟩ := scrub_clears running settled check parity
    generalize lineClear (some s.part.rst.scrubPtr) none (noteDamage .double s.part.rst.scrubPtr .rst s.part) = q at *
    have captured := work.capture ⟨.double, s.part.rst.scrubPtr, tagOf (s.part.slot s.part.rst.scrubPtr).shadow.gen s.part.rst.scrubPtr, .rst⟩
      (noteDamage_capture empty)
    obtain ⟨c, clear, auto⟩ := work.clear
    have ztr : t.part.ztr = (clearTracker s.part).ztr :=
      after.1.2.2.1.trans (work.tracker.trans (clearTracker_congr (noteDamage_blocks _ _ _ _).2.1))
    have acu : t.part.acu = (clearActions (noteDamage .double s.part.rst.scrubPtr .rst s.part)).acu := after.1.2.2.2.1.trans work.actions
    have cpl : t.part.cpl.queue = [] := by
      rw [after.1.2.2.2.2.2.2, show (pointed (s.part.rst.scrubPtr + 1) q).cpl = q.cpl from rfl, work.planner]
      rfl
    refine ⟨t, done, pending, fun z => ?_, ?_, by rw [ztr]; rfl, by rw [acu]; rfl, by rw [acu]; rfl, cpl, c, ?_, auto rfl⟩
    · rw [queue_tracker ztr z]
      exact (clearTracker_kept_fields s.part z).1
    · rw [after.1.2.1]
      exact captured
    · rw [after.2.2]
      exact clear
  · obtain ⟨⟨t, done, pending, after⟩, work⟩ := scrub_clears running settled check parity
    have cleared := lineClear_cleared ((noteDamage_kept .double s.part.rst.scrubPtr .rst s.part).records.storeLaws laws) (some s.part.rst.scrubPtr) none
    have clean := lineClear_automatic_clean s.part.rst.scrubPtr none (noteDamage .double s.part.rst.scrubPtr .rst s.part)
    generalize lineClear (some s.part.rst.scrubPtr) none (noteDamage .double s.part.rst.scrubPtr .rst s.part) = q at *
    obtain ⟨c, clear, auto⟩ := work.clear
    refine ⟨t, done, pending, after.lineCleared cleared.pointed, fun i => ?_, ?_, ?_⟩
    · rw [CleanSlot, slot_congr after.1.2.1]
      exact clean i
    · rw [after.1.2.1]
      rfl
    · rw [after.2.2]
      exact ⟨c, clear, auto rfl⟩

end Sys2Proof.Machine

/-! PROOFS. The coil pair and the forward order of waste intervals (6.5, 6.6). -/

namespace Sys2Proof.Machine

open Sys2Proof

/-! The pair serves what one entry owes (R129). -/

theorem serveFlap_on {p : Part} (on : p.acu.coil.isSome = true) : serveFlap p = p := by rw [serveFlap, if_pos on]

theorem serveFlap_blocked {e : WasteEntry} {c : Coil} {p : Part} (lone : p.acu.waste = [e]) (owed : owes e.state = some c)
    (blocks : deadBlocks c p = true) : serveFlap p = p := by
  have found : p.acu.waste.find? (fun x => (owes x.state).isSome) = some e := by
    rw [lone, List.find?_cons_of_pos (by rw [owed]; rfl)]
  unfold serveFlap
  rw [found]
  dsimp only
  rw [owed]
  dsimp only
  rw [if_pos blocks, ite_self]

theorem serveFlap_starts {e : WasteEntry} {c : Coil} {p : Part} (lone : p.acu.waste = [e]) (owed : owes e.state = some c)
    (off : p.acu.coil = none) (free : deadBlocks c p = false) : serveFlap p = startFlap e c p := by
  have found : p.acu.waste.find? (fun x => (owes x.state).isSome) = some e := by
    rw [lone, List.find?_cons_of_pos (by rw [owed]; rfl)]
  unfold serveFlap
  rw [off, found]
  dsimp only
  rw [owed]
  dsimp only
  rw [free, Option.isSome_none, if_neg Bool.false_ne_true, if_neg Bool.false_ne_true]

/-- The only entry's open pulse starts. -/
theorem startFlap_opening {o : Nat} {t : Option Nat} {p : Part} (lone : p.acu.waste = [⟨o, t, .openDue⟩]) :
    startFlap ⟨o, t, .openDue⟩ .opening p = { p with
      acu.waste := [⟨o, t, .opened⟩]
      acu.coil := some (.opening, p.acu.flapWidth)
      acu.dead := none
      acu.flapOpen := true } := by
  rw [startFlap, lone]
  simp only [List.map_cons, List.map_nil, if_true, afterOpenPulse]

/-- The only entry's shut pulse starts, and the entry leaves the list. -/
theorem startFlap_shutting {e : WasteEntry} {p : Part} (lone : p.acu.waste = [e]) : startFlap e .shutting p = { p with
    acu.waste := []
    acu.coil := some (.shutting, p.acu.flapWidth)
    acu.dead := none
    acu.flapOpen := false } := by
  rw [startFlap, lone, List.filter_cons_of_neg (by simp), List.filter_nil]

/-- The dead time holds a pulse back only behind one of the other coil. -/
theorem deadBlocks_iff {c d : Coil} (other : c ≠ d) {p : Part} :
    deadBlocks d p = true ↔ p.acu.lastCoil = some c ∧ p.acu.dead.isSome = true := by
  unfold deadBlocks
  cases p.acu.lastCoil with
  | none => simp
  | some last => cases c <;> cases d <;> cases last <;> simp at *

/-! Targets taken, and the ends of pulses. -/

theorem takeOpenTarget_lone {t : Nat} {shut : Option Nat} {p : Part} (lone : p.acu.waste = [⟨t, shut, .waiting⟩]) :
    takeOpenTarget t p = serveFlap { p with acu.waste := [⟨t, shut, .openDue⟩] } := by
  rw [takeOpenTarget, lone]
  simp only [List.map_cons, List.map_nil, if_true, afterOpenTarget]

theorem takeShutTarget_lone {o t : Nat} {p : Part} (lone : p.acu.waste = [⟨o, some t, .opened⟩]) :
    takeShutTarget t p = serveFlap { p with acu.waste := [⟨o, some t, .shutDue⟩] } := by
  rw [takeShutTarget, lone]
  simp only [List.map_cons, List.map_nil, if_true, withShut]

/-- Clause of O27: an open target taken. -/
theorem openTarget_taken {t : Nat} {shut : Option Nat} {s : State} (running : Running s.part) (settled : Settled s.part)
    (due : Event.wasteOpen t ∈ s.part.ztr.due) (lone : s.part.acu.waste = [⟨t, shut, .waiting⟩]) (off : s.part.acu.coil = none) :
    ((s.part.acu.lastCoil ≠ some .shutting ∨ s.part.acu.dead = none) → Completes (.wasteOpenTarget t) s { spent (.wasteOpen t) s.part with
      acu.waste := [⟨t, shut, .opened⟩]
      acu.coil := some (.opening, s.part.acu.flapWidth)
      acu.dead := none
      acu.flapOpen := true })
    ∧ (s.part.acu.lastCoil = some .shutting → s.part.acu.dead ≠ none →
      Completes (.wasteOpenTarget t) s { spent (.wasteOpen t) s.part with acu.waste := [⟨t, shut, .openDue⟩] }) := by
  let p : Part := { spent (.wasteOpen t) s.part with acu.waste := [⟨t, shut, .openDue⟩] }
  have body : takeDue (.wasteOpen t) s.part = serveFlap p := by
    rw [takeDue_of_mem due]
    exact takeOpenTarget_lone (p := spent (.wasteOpen t) s.part) lone
  refine ⟨fun free => completes_of_eq rfl running ?_ settled.1, fun last dead => completes_of_eq rfl running ?_ settled.1⟩
  · have unblocked : deadBlocks .opening p = false := by
      refine Bool.eq_false_iff.2 fun blocks => ?_
      obtain ⟨last, dead⟩ := (deadBlocks_iff (c := .shutting) (by decide)).1 blocks
      rcases free with free | free
      · exact free last
      · rw [show p.acu.dead = none from free] at dead
        exact Bool.false_ne_true dead
    exact (body.trans (serveFlap_starts (p := p) rfl rfl off unblocked)).trans (startFlap_opening (p := p) rfl)
  · rw [body]
    exact serveFlap_blocked (p := p) (c := .opening) rfl rfl
      ((deadBlocks_iff (c := .shutting) (by decide)).2 ⟨last, Option.isSome_iff_ne_none.2 dead⟩)

/-- Clause of O27: a shut target taken. -/
theorem shutTarget_taken {o t : Nat} {s : State} (running : Running s.part) (settled : Settled s.part)
    (due : Event.wasteShut t ∈ s.part.ztr.due) (lone : s.part.acu.waste = [⟨o, some t, .opened⟩]) :
    (s.part.acu.coil = none → s.part.acu.dead = none → Completes (.wasteShutTarget t) s { spent (.wasteShut t) s.part with
      acu.waste := []
      acu.coil := some (.shutting, s.part.acu.flapWidth)
      acu.flapOpen := false })
    ∧ (s.part.acu.coil ≠ none →
      Completes (.wasteShutTarget t) s { spent (.wasteShut t) s.part with acu.waste := [⟨o, some t, .shutDue⟩] }) := by
  let p : Part := { spent (.wasteShut t) s.part with acu.waste := [⟨o, some t, .shutDue⟩] }
  have body : takeDue (.wasteShut t) s.part = serveFlap p := by
    rw [takeDue_of_mem due]
    exact takeShutTarget_lone (p := spent (.wasteShut t) s.part) lone
  refine ⟨fun off ended => completes_of_eq rfl running ?_ settled.1, fun on => completes_of_eq rfl running ?_ settled.1⟩
  · have unblocked : deadBlocks .shutting p = false := by
      refine Bool.eq_false_iff.2 fun blocks => ?_
      obtain ⟨-, dead⟩ := (deadBlocks_iff (c := .opening) (by decide)).1 blocks
      rw [show p.acu.dead = none from ended] at dead
      exact Bool.false_ne_true dead
    rw [body, serveFlap_starts (p := p) rfl rfl off unblocked, startFlap_shutting (p := p) rfl, ← ended]
    rfl
  · rw [body]
    exact serveFlap_on (p := p) (Option.isSome_iff_ne_none.2 on)

/-- Clause of O27: the end of the open pulse, or of its dead time, with a shut pulse owed. -/
theorem shutPulse_waits {o t w : Nat} {s : State} (running : Running s.part) (settled : Settled s.part)
    (lone : s.part.acu.waste = [⟨o, some t, .shutDue⟩]) :
    let p := s.part
    let shut := { p with
      acu.waste := []
      acu.coil := some (.shutting, p.acu.flapWidth)
      acu.lastCoil := some .opening
      acu.dead := none
      acu.flapOpen := false }
    (p.acu.coil = some (.opening, w) → 0 < p.acu.deadTime → Completes .flapPulseEnd s { p with
      acu.coil := none
      acu.lastCoil := some .opening
      acu.dead := some p.acu.deadTime })
    ∧ (p.acu.coil = some (.opening, w) → p.acu.deadTime = 0 → Completes .flapPulseEnd s shut)
    ∧ (p.acu.coil = none → p.acu.lastCoil = some .opening → p.acu.dead ≠ none → Completes .deadTimeExpiry s shut) := by
  intro p shut
  have starts {q : Part} (lone_q : q.acu.waste = [⟨o, some t, .shutDue⟩]) (off : q.acu.coil = none) (ended : q.acu.dead = none) :
      serveFlap q = { q with
        acu.waste := []
        acu.coil := some (.shutting, q.acu.flapWidth)
        acu.dead := none
        acu.flapOpen := false } := by
    have unblocked : deadBlocks .shutting q = false := by
      refine Bool.eq_false_iff.2 fun blocks => ?_
      obtain ⟨-, dead⟩ := (deadBlocks_iff (c := .opening) (by decide)).1 blocks
      rw [ended] at dead
      exact Bool.false_ne_true dead
    rw [serveFlap_starts lone_q rfl off unblocked, startFlap_shutting lone_q]
  refine ⟨fun on some_left => completes_of_eq rfl running ?_ settled.1, fun on none_left => completes_of_eq rfl running ?_ settled.1,
    fun off last dead => completes_of_eq rfl running ?_ settled.1⟩
  · rw [endFlapPulse, show s.part.acu.coil = _ from on]
    dsimp only
    rw [if_neg (by exact Nat.ne_of_gt some_left)]
    exact serveFlap_blocked (c := .shutting) lone rfl ((deadBlocks_iff (c := .opening) (by decide)).2 ⟨rfl, rfl⟩)
  · rw [endFlapPulse, show s.part.acu.coil = _ from on]
    dsimp only
    rw [if_pos (by exact none_left)]
    exact starts (by exact lone) rfl rfl
  · rw [endDeadTime, if_pos (Option.isSome_iff_ne_none.2 dead)]
    rw [starts (by exact lone) (by exact off) rfl]
    simp only [shut, ← last]
    rfl

/-! Forward order in zone C (R32, R126). -/

/-- A position no more than half a turn forward is not behind. -/
theorem not_ahead_of_forward {a b : Nat} (h : minus .C a b < 8388608) : strictlyAhead .C b a = false := by
  have turn : ahead .C b a = minus .C b a := rfl
  simp only [strictlyAhead, Bool.and_eq_false_iff, decide_eq_false_iff_not, turn, halfModulus, modulus]
  simp only [minus_C] at *
  omega

theorem forward_of_ahead {a b : Nat} (h : strictlyAhead .C a b = true) : 1 ≤ minus .C a b ∧ minus .C a b < 8388608 := by
  rw [strictlyAhead, Bool.and_eq_true] at h
  exact ⟨of_decide_eq_true h.1, of_decide_eq_true h.2⟩

theorem not_ahead_of_ahead {a b : Nat} (h : strictlyAhead .C a b = true) : strictlyAhead .C b a = false :=
  not_ahead_of_forward (forward_of_ahead h).2

theorem ne_of_ahead {a b : Nat} (h : strictlyAhead .C a b = true) : a ≠ b := by
  rintro rfl
  exact absurd (not_ahead_of_ahead h) (by rw [h]; decide)

/-- The model's test of two intervals is that of the statement (R126). -/
theorem touches_iff (a b : WasteEntry) : touches a b = true ↔ IntervalsMeet a b := by
  obtain ⟨oa, ta, wa⟩ := a
  obtain ⟨ob, tb, wb⟩ := b
  rw [touches, Bool.or_eq_true, decide_eq_true_iff, decide_eq_true_iff]
  have span (n : Nat) : n ≤ halfModulus .C - 1 ↔ n < 8388608 := by
    rw [show halfModulus .C = 8388608 from rfl, Nat.le_sub_one_iff_lt (by omega)]
  cases ta with
  | none =>
    cases tb with
    | none => exact or_congr (span _) (span _)
    | some t => exact or_congr (span _) .rfl
  | some t =>
    cases tb with
    | none => exact or_congr .rfl (span _)
    | some t' => exact .rfl

theorem touches_comm (a b : WasteEntry) : touches a b = touches b a := by rw [touches, touches, Bool.or_comm]

end Sys2Proof.Machine

/-! PROOFS. Waste intervals joined and merged settle their obligation (6.5, 6.6). -/

namespace Sys2Proof.Machine

open Sys2Proof

/-! Two intervals joined (R126). -/

/-- The entry opens no later: its open target and progress stand. -/
theorem joinEntries_entry {o o' : Nat} {t t' : Option Nat} {v w : WasteState} (forward : minus .C o o' < 8388608) :
    joinEntries ⟨o, t, v⟩ ⟨o', t', w⟩ =
      ⟨o', (furtherShut ⟨o, t, v⟩ ⟨o', t', w⟩).1, withShut w (furtherShut ⟨o, t, v⟩ ⟨o', t', w⟩).2⟩ := by
  unfold joinEntries
  dsimp only
  rw [precedes, not_ahead_of_forward forward, if_neg Bool.false_ne_true]

/-- The new interval opens first. -/
theorem joinEntries_new {o o' : Nat} {t t' : Option Nat} {v w : WasteState} (ahead : strictlyAhead .C o' o = true) :
    joinEntries ⟨o, t, v⟩ ⟨o', t', w⟩ =
      ⟨o, (furtherShut ⟨o, t, v⟩ ⟨o', t', w⟩).1, withShut v (furtherShut ⟨o, t, v⟩ ⟨o', t', w⟩).2⟩ := by
  unfold joinEntries
  dsimp only
  rw [precedes, if_pos ahead]

theorem furtherShut_new {o o' t t' : Nat} {v w : WasteState} (further : strictlyAhead .C t t' = true) :
    furtherShut ⟨o, some t, v⟩ ⟨o', some t', w⟩ = (some t, shutTaken v) := by
  unfold furtherShut
  dsimp only
  rw [if_neg (ne_of_ahead further), precedes, not_ahead_of_ahead further, if_neg Bool.false_ne_true]

theorem furtherShut_entry {o o' t t' : Nat} {v w : WasteState} (untaken : shutTaken v = false)
    (further : t = t' ∨ strictlyAhead .C t' t = true) : furtherShut ⟨o, some t, v⟩ ⟨o', some t', w⟩ = (some t', shutTaken w) := by
  unfold furtherShut
  dsimp only
  rcases further with rfl | further
  · rw [if_pos rfl, untaken, Bool.false_or]
  · rw [if_neg (ne_of_ahead further).symm, precedes, if_pos further]

theorem withShut_self (w : WasteState) : withShut w (shutTaken w) = w := by cases w <;> rfl

theorem withShut_untaken (w : WasteState) : withShut w false = shutAhead w := by cases w <;> rfl

theorem shutTaken_untaken {w : WasteState} : shutTaken w = false ↔ shutAhead w = w := by cases w <;> decide

theorem shutTaken_shutAhead (w : WasteState) : shutTaken (shutAhead w) = false := by cases w <;> rfl

/-! An entry placed that owes nothing more (R129). -/

theorem owes_shutAhead {w : WasteState} (owed : (owes (shutAhead w)).isSome = true) : owes w = owes (shutAhead w) := by
  cases w with
  | shutDue => exact absurd owed Bool.false_ne_true
  | _ => rfl

/-- A shut target moved ahead makes no pulse owed. -/
theorem newlyOwes_shutAhead {o : Nat} {t : Option Nat} {x : WasteEntry} {gone : List WasteEntry} (m : x ∈ gone) :
    newlyOwes ⟨o, t, shutAhead x.state⟩ gone = false := by
  cases owed : (owes (shutAhead x.state)).isSome with
  | false => rw [newlyOwes, owed, Bool.false_and]
  | true => exact newlyOwes_kept m (owes_shutAhead owed)

theorem armEntry_acu (e : WasteEntry) (p : Part) : (armEntry e p).acu = p.acu := by
  obtain ⟨cs, due, now, h⟩ := armEntry_recompared e p
  rw [h]

theorem entered_acu (e : WasteEntry) (gone rest : List WasteEntry) (p : Part) : (entered e gone rest p).acu = { p.acu with
    waste := insertEntry e rest
    mark := if e.shutT.isNone then some e.openT else p.acu.mark } := by
  obtain ⟨cs, due, now, h⟩ := placed_recompared gone p
  rw [entered, h]

theorem placeEntry_acu {e : WasteEntry} {gone rest : List WasteEntry} {p : Part} (quiet : newlyOwes e gone = false) :
    (placeEntry e gone rest p).acu = { p.acu with
      waste := insertEntry e rest
      mark := if e.shutT.isNone then some e.openT else p.acu.mark } := by
  rw [placeEntry_eq, quiet, if_neg Bool.false_ne_true, armEntry_acu, entered_acu]

/-! What an interval entered meets. -/

theorem enterWaste_meets {o : Nat} {t : Option Nat} {x : WasteEntry} {p : Part} (lone : p.acu.waste = [x])
    (meets : touches ⟨o, t, .waiting⟩ x = true) : enterWaste o t p = placeEntry (joinEntries ⟨o, t, .waiting⟩ x) [x] [] p := by
  unfold enterWaste
  simp only [lone, List.filter_cons, List.filter_nil, meets, if_true, List.isEmpty_cons, Bool.false_and, Bool.false_eq_true, if_false,
    List.foldl_cons, List.foldl_nil, Bool.not_true]

theorem enterWaste_meetsBoth {o : Nat} {t : Option Nat} {x y : WasteEntry} {p : Part} (pair : p.acu.waste = [x, y])
    (first : touches ⟨o, t, .waiting⟩ x = true) (second : touches ⟨o, t, .waiting⟩ y = true) :
    enterWaste o t p = placeEntry (joinEntries (joinEntries ⟨o, t, .waiting⟩ x) y) [x, y] [] p := by
  unfold enterWaste
  simp only [pair, List.filter_cons, List.filter_nil, first, second, if_true, List.isEmpty_cons, Bool.false_and, Bool.false_eq_true, if_false,
    List.foldl_cons, List.foldl_nil, Bool.not_true]

theorem enterWaste_apart {o : Nat} {t : Option Nat} {x : WasteEntry} {p : Part} (lone : p.acu.waste = [x])
    (apart : touches ⟨o, t, .waiting⟩ x = false) : enterWaste o t p = placeEntry ⟨o, t, .waiting⟩ [] [x] p := by
  unfold enterWaste
  simp only [lone, List.filter_cons, List.filter_nil, apart, Bool.false_eq_true, if_false, List.foldl_nil, Bool.not_false, if_true,
    List.isEmpty_nil, Bool.true_and, Config.wasteCap, List.length_cons, List.length_nil, decide_eq_true_eq,
    show ¬ 64 ≤ 0 + 1 by decide]

/-- Clauses of O27: an interval beside one that stands. -/
theorem enterWaste_beside {o t o' t' : Nat} {w : WasteState} {p : Part} (lone : p.acu.waste = [⟨o', some t', w⟩]) :
    let r := enterWaste o (some t) p
    let inside := minus .C o o' ≤ minus .C t' o' ∧ minus .C o o' < 8388608
    let before := strictlyAhead .C o' o = true ∧ minus .C o' o ≤ minus .C t o
    (inside → strictlyAhead .C t t' = true → r.acu.waste = [⟨o', some t, shutAhead w⟩])
    ∧ (inside → (t = t' ∨ strictlyAhead .C t' t = true) → r.acu.waste = [⟨o', some t', w⟩])
    ∧ (before → strictlyAhead .C t t' = true → r.acu.waste = [⟨o, some t, .waiting⟩])
    ∧ (before → strictlyAhead .C t' t = true → shutAhead w = w → r.acu.waste = [⟨o, some t', .waiting⟩])
    ∧ (before → strictlyAhead .C t' t = true → shutAhead w ≠ w → r.acu.waste = [⟨o, some t', .waitingShut⟩])
    ∧ (inside → (enterWaste o none p).acu.waste = [⟨o', none, shutAhead w⟩] ∧ (enterWaste o none p).acu.mark = some o')
    ∧ (¬ IntervalsMeet ⟨o, some t, .waiting⟩ ⟨o', some t', w⟩ → r.acu.mark = p.acu.mark
      ∧ (strictlyAhead .C o o' = true → r.acu.waste = [⟨o', some t', w⟩, ⟨o, some t, .waiting⟩])
      ∧ (strictlyAhead .C o' o = true → r.acu.waste = [⟨o, some t, .waiting⟩, ⟨o', some t', w⟩]))
    ∧ (inside → w = .waiting → strictlyAhead .C t t' = true → strictlyAhead .C o' (p.counter .C) = true →
      strictlyAhead .C t (p.counter .C) = true →
      r.ztr.compares = (cancel (.wasteShut t') (cancel (.wasteOpen o') p)).ztr.compares ++ [⟨.wasteOpen o', o'⟩, ⟨.wasteShut t, t⟩]) := by
  intro r inside before
  let n (u : Option Nat) : WasteEntry := ⟨o, u, .waiting⟩
  let x : WasteEntry := ⟨o', some t', w⟩
  have meets_inside (u : Option Nat) (h : inside) : touches (n u) x = true := (touches_iff _ _).2 (.inr h.1)
  have meets_before (h : before) : touches (n (some t)) x = true := (touches_iff _ _).2 (.inl h.2)
  have joined {u : Option Nat} {e : WasteEntry} (meets : touches (n u) x = true) (join : joinEntries (n u) x = e)
      (quiet : newlyOwes e [x] = false) : (enterWaste o u p).acu = { p.acu with
        waste := [e]
        mark := if e.shutT.isNone then some e.openT else p.acu.mark } := by
    rw [enterWaste_meets lone meets, join, placeEntry_acu quiet]
    rfl
  refine ⟨fun h further => ?_, fun h further => ?_, fun h further => ?_, fun h further untaken => ?_, fun h further taken => ?_, fun h => ?_,
    fun apart => ?_, fun h waiting further opens shuts => ?_⟩
  · have join : joinEntries (n (some t)) x = ⟨o', some t, shutAhead w⟩ := by
      rw [joinEntries_entry h.2, furtherShut_new further]
      exact congrArg _ (withShut_untaken w)
    exact congrArg Actions.waste (joined (meets_inside _ h) join (newlyOwes_shutAhead (x := x) (.head _)))
  · have join : joinEntries (n (some t)) x = x := by
      rw [joinEntries_entry h.2, furtherShut_entry rfl further, withShut_self]
    exact congrArg Actions.waste (joined (meets_inside _ h) join (newlyOwes_kept (.head _) rfl))
  · have join : joinEntries (n (some t)) x = n (some t) := by
      rw [joinEntries_new h.1, furtherShut_new further]
      rfl
    exact congrArg Actions.waste (joined (meets_before h) join rfl)
  · have join : joinEntries (n (some t)) x = n (some t') := by
      rw [joinEntries_new h.1, furtherShut_entry rfl (.inr further), shutTaken_untaken.2 untaken]
      rfl
    exact congrArg Actions.waste (joined (meets_before h) join rfl)
  · have join : joinEntries (n (some t)) x = ⟨o, some t', .waitingShut⟩ := by
      rw [joinEntries_new h.1, furtherShut_entry rfl (.inr further), (Bool.not_eq_false _).mp (mt shutTaken_untaken.1 taken)]
      rfl
    exact congrArg Actions.waste (joined (meets_before h) join rfl)
  · have join : joinEntries (n none) x = ⟨o', none, shutAhead w⟩ := by
      rw [joinEntries_entry h.2]
      exact congrArg _ (withShut_untaken w)
    have acu := joined (meets_inside _ h) join (newlyOwes_shutAhead (x := x) (.head _))
    exact ⟨congrArg Actions.waste acu, congrArg Actions.mark acu⟩
  · have placed : r.acu = { p.acu with waste := insertEntry (n (some t)) [x] } := by
      have untouched : touches (n (some t)) x = false := Bool.eq_false_iff.2 (mt (touches_iff _ _).1 apart)
      rw [show r = _ from enterWaste_apart lone untouched, placeEntry_acu rfl]
      rfl
    rw [placed]
    refine ⟨rfl, fun behind => ?_, fun ahead => ?_⟩
    · exact insertForward_tail fun y m => by
        rw [List.mem_singleton.1 m, precedes]
        exact not_ahead_of_ahead behind
    · have first : precedes .C (n (some t)).openT x.openT = true := ahead
      show insertForward .C _ _ _ = _
      rw [insertForward, List.takeWhile_cons, List.dropWhile_cons, first]
      rfl
  · have join : joinEntries (n (some t)) x = ⟨o', some t, .waiting⟩ := by
      rw [joinEntries_entry h.2, furtherShut_new further, waiting]
      rfl
    rw [show r = _ from enterWaste_meets lone (meets_inside _ h), join, placeEntry_eq, newlyOwes_waiting, if_neg Bool.false_ne_true, armEntry]
    dsimp only
    rw [openAhead, if_pos rfl, shutTaken, if_neg Bool.false_ne_true, arm_ahead (e := .wasteOpen o') (by exact opens),
      arm_ahead (e := .wasteShut t) (by exact shuts)]
    dsimp only
    rw [List.append_assoc]
    rfl

/-- An interval that meets two entries makes one of all three (R126). -/
theorem joinEntries_three {o t o₁ t₁ o₂ t₂ : Nat} {v w₁ w₂ : WasteState} (forward : minus .C o o₁ < 8388608)
    (ahead : strictlyAhead .C o₂ o₁ = true) (further : strictlyAhead .C t t₁ = true) (furthest : strictlyAhead .C t₂ t = true)
    (untaken : shutTaken v = false) : joinEntries (joinEntries ⟨o, some t, v⟩ ⟨o₁, some t₁, w₁⟩) ⟨o₂, some t₂, w₂⟩ =
      ⟨o₁, some t₂, withShut (shutAhead w₁) (shutTaken w₂)⟩ := by
  rw [joinEntries_entry forward, furtherShut_new further, untaken, withShut_untaken, joinEntries_new ahead,
    furtherShut_entry (shutTaken_shutAhead w₁) (.inr furthest)]

/-- Of three intervals one, as it is placed. -/
theorem enterWaste_between {o t o₁ t₁ o₂ t₂ : Nat} {w₁ w₂ : WasteState} {p : Part}
    (pair : p.acu.waste = [⟨o₁, some t₁, w₁⟩, ⟨o₂, some t₂, w₂⟩]) (within : minus .C o o₁ ≤ minus .C t₁ o₁)
    (forward : minus .C o o₁ < 8388608) (reaches : minus .C o₂ o ≤ minus .C t o) (ahead : strictlyAhead .C o₂ o₁ = true)
    (further : strictlyAhead .C t t₁ = true) (furthest : strictlyAhead .C t₂ t = true) :
    enterWaste o (some t) p = placeEntry ⟨o₁, some t₂, withShut (shutAhead w₁) (shutTaken w₂)⟩
      [⟨o₁, some t₁, w₁⟩, ⟨o₂, some t₂, w₂⟩] [] p := by
  rw [enterWaste_meetsBoth pair ((touches_iff _ _).2 (.inr within)) ((touches_iff _ _).2 (.inl reaches)),
    joinEntries_three forward ahead further furthest rfl]

/-- A shut pulse that becomes owed by a joint is tested at once (R129). -/
theorem placeEntry_owing {o t : Nat} {gone : List WasteEntry} {p : Part} (newly : newlyOwes ⟨o, some t, .shutDue⟩ gone = true) :
    let held := p.acu.coil.isSome = true ∨ (p.acu.lastCoil = some .opening ∧ p.acu.dead.isSome = true)
    (held → (placeEntry ⟨o, some t, .shutDue⟩ gone [] p).acu = { p.acu with waste := [⟨o, some t, .shutDue⟩] })
    ∧ (¬ held → (placeEntry ⟨o, some t, .shutDue⟩ gone [] p).acu = { p.acu with
      waste := []
      coil := some (.shutting, p.acu.flapWidth)
      dead := none
      flapOpen := false }) := by
  intro held
  rw [placeEntry_eq, if_pos newly]
  have acu : (armEntry ⟨o, some t, .shutDue⟩ (entered ⟨o, some t, .shutDue⟩ gone [] p)).acu =
      { p.acu with waste := [⟨o, some t, .shutDue⟩] } := by
    rw [armEntry_acu, entered_acu]
    rfl
  generalize armEntry ⟨o, some t, .shutDue⟩ (entered ⟨o, some t, .shutDue⟩ gone [] p) = q at acu
  have lone : q.acu.waste = [⟨o, some t, .shutDue⟩] := by rw [acu]
  have blocks : deadBlocks .shutting q = true ↔ p.acu.lastCoil = some .opening ∧ p.acu.dead.isSome = true := by
    rw [deadBlocks_iff (c := .opening) (by decide), acu]
  have coil : q.acu.coil = p.acu.coil := by rw [acu]
  refine ⟨fun holds => ?_, fun free => ?_⟩
  · have waits : serveFlap q = q := by
      rcases holds with on | dead
      · exact serveFlap_on (by rw [coil]; exact on)
      · exact serveFlap_blocked lone rfl (blocks.2 dead)
    rw [waits, acu]
  · obtain ⟨off, live⟩ := not_or.1 free
    rw [serveFlap_starts lone rfl (coil.trans (by simpa using off)) (Bool.eq_false_iff.2 (mt blocks.1 live)), startFlap_shutting lone]
    dsimp only
    rw [acu]

/-- Clause of O27: a full list's last entry extended over the new interval. -/
theorem enterWaste_full {o t o' t' : Nat} {w : WasteState} {rest : List WasteEntry} {p : Part}
    (full : p.acu.waste = rest ++ [⟨o', some t', w⟩]) (cap : rest.length = 63)
    (clear : ∀ x ∈ rest, precedes .C x.openT o' = true ∧ ¬ IntervalsMeet x ⟨o', some t, w⟩ ∧ ¬ IntervalsMeet ⟨o, some t, .waiting⟩ x)
    (apart : ¬ IntervalsMeet ⟨o, some t, .waiting⟩ ⟨o', some t', w⟩) (ahead : strictlyAhead .C o o' = true)
    (further : strictlyAhead .C t t' = true) : (enterWaste o (some t) p).acu.waste = rest ++ [⟨o', some t, shutAhead w⟩] := by
  let n : WasteEntry := ⟨o, some t, .waiting⟩
  let last : WasteEntry := ⟨o', some t', w⟩
  let e : WasteEntry := ⟨o', some t, shutAhead w⟩
  have extended : extendLast last n = e := by
    unfold extendLast
    dsimp only [last, n]
    rw [show precedes .C t' t = true from further, if_pos rfl, show precedes .C o o' = false from not_ahead_of_ahead ahead, Bool.and_false,
      if_neg Bool.false_ne_true]
    exact congrArg _ (withShut_untaken w)
  have none_met : p.acu.waste.filter (touches n) = [] := by
    rw [full, List.filter_append, List.append_eq_nil_iff, List.filter_eq_nil_iff, List.filter_eq_nil_iff]
    exact ⟨fun x m => mt (touches_iff _ _).1 (clear x m).2.2, fun x m => by
      rw [List.mem_singleton.1 m]
      exact mt (touches_iff _ _).1 apart⟩
  have untouched : ∀ x ∈ rest, touches e x = false := fun x m => by
    rw [touches_comm]
    exact Bool.eq_false_iff.2 (mt (touches_iff _ _).1 (clear x m).2.1)
  have others : rest.filter (touches e) = [] := List.filter_eq_nil_iff.2 fun x m => by
    rw [untouched x m]
    exact Bool.false_ne_true
  have stay : rest.filter (fun x => !touches e x) = rest := List.filter_eq_self.2 fun x m => by rw [untouched x m]; rfl
  have placed : enterWaste o (some t) p = placeEntry e [last] rest p := by
    unfold enterWaste
    dsimp only
    have lasts : p.acu.waste.getLast? = some last := by rw [full, List.getLast?_concat]
    have room : Config.wasteCap ≤ p.acu.waste.length := by
      rw [full, List.length_append, cap]
      exact Nat.le_refl 64
    rw [none_met, if_pos (by rw [List.isEmpty_nil, Bool.true_and]; exact decide_eq_true room), lasts]
    dsimp only
    rw [show p.acu.waste.dropLast = rest by rw [full, List.dropLast_concat], extended, others, stay]
    rfl
  rw [placed, placeEntry_acu (newlyOwes_shutAhead (x := last) (.head _))]
  exact insertForward_tail fun x m => not_ahead_of_ahead (clear x m).1

/-- Settles O27. -/
theorem flapServesOwedPulses : Obligations.FlapServesOwedPulses := by
  refine ⟨fun t shut s running settled => ?_, fun o t s running settled => ?_, fun o t w s running settled => ?_,
    fun o t p => enterWaste_shape o t p, fun o t o' t' w p lone => enterWaste_beside lone,
    fun o t o₁ t₁ o₂ t₂ w₁ w₂ p pair within forward reaches ahead further furthest untaken => ?_,
    fun o t o₁ t₁ o₂ t₂ w₂ p pair within forward reaches ahead further furthest taken => ?_,
    fun o t o' t' w rest p full cap clear apart ahead further => enterWaste_full full cap clear apart ahead further⟩
  · intro p due lone off
    exact openTarget_taken running settled due lone off
  · intro p due lone
    exact shutTarget_taken running settled due lone
  · intro p shut lone
    exact shutPulse_waits running settled lone
  · have quiet : newlyOwes ⟨o₁, some t₂, shutAhead w₁⟩ [⟨o₁, some t₁, w₁⟩, ⟨o₂, some t₂, w₂⟩] = false :=
      newlyOwes_shutAhead (x := ⟨o₁, some t₁, w₁⟩) (.head _)
    rw [enterWaste_between pair within forward reaches ahead further furthest, shutTaken_untaken.2 untaken, withShut_untaken]
    rw [show shutAhead (shutAhead w₁) = shutAhead w₁ from shutTaken_untaken.1 (shutTaken_shutAhead w₁), placeEntry_acu quiet]
    rfl
  · have spent_shut : shutTaken w₂ = true := by rcases taken with rfl | rfl <;> rfl
    rw [enterWaste_between pair within forward reaches ahead further furthest, spent_shut]
    exact placeEntry_owing (by rcases taken with rfl | rfl <;> rfl)

end Sys2Proof.Machine

/-! PROOFS. Counter steps and the UNSURE marking settle their obligation (2.1, 9.6). -/

namespace Sys2Proof.Machine

open Sys2Proof

/-! A reverse step (R32, R34, R35). -/

/-- The part one reverse step back. -/
def back (z : Zone) (p : Part) : Part := p.setZone z { p.zone z with counter := minus z (p.counter z) 1 }

/-- A zone's mark set to its counter. -/
def remarked (z : Zone) (p : Part) : Part := p.setZone z { p.zone z with mark := p.counter z }

theorem back_blocks (z : Zone) (p : Part) : (back z p).ztr.geoValid = p.ztr.geoValid ∧ (back z p).ztr.geo = p.ztr.geo
    ∧ (back z p).rst = p.rst ∧ (back z p).queue z = p.queue z ∧ (back z p).ztr.cutList = p.ztr.cutList
    ∧ (back z p).ztr.atOnce = p.ztr.atOnce := by
  unfold back
  generalize minus z (p.counter z) 1 = n
  cases z <;> exact ⟨rfl, rfl, rfl, rfl, rfl, rfl⟩

theorem back_bundles (z : Zone) (p : Part) : (∀ b : BayNo, (back z p).bay b = p.bay b) ∧ ∀ o : OrderNo, (back z p).order o = p.order o := by
  unfold back
  generalize minus z (p.counter z) 1 = n
  cases z <;> exact ⟨fun _ => rfl, fun _ => rfl⟩

/-- A reverse step with its mark set, as one change of the zone's record. -/
theorem remarked_back (z : Zone) (p : Part) : remarked z (back z p) =
    p.setZone z { p.zone z with counter := minus z (p.counter z) 1, mark := minus z (p.counter z) 1 } := by
  unfold back
  generalize minus z (p.counter z) 1 = n
  cases z <;> rfl

theorem stepReverse_within {z : Zone} {p : Part} (within : p.ztr.geoValid = true → deficit z (back z p) ≤ p.ztr.geo.zRev) :
    stepReverse z p = back z p := by
  obtain ⟨valid, geo, -⟩ := back_blocks z p
  have steady : ((back z p).ztr.geoValid && decide ((back z p).ztr.geo.zRev < deficit z (back z p))) = false := by
    rw [valid, geo, Bool.and_eq_false_imp]
    exact fun h => decide_eq_false (Nat.not_lt.2 (within h))
  unfold stepReverse
  dsimp only
  rw [show setCounter z (minus z (p.counter z) 1) p = back z p from rfl, steady, if_neg Bool.false_ne_true]

theorem stepReverse_beyond {z : Zone} {p : Part} (valid : p.ztr.geoValid = true) (beyond : p.ztr.geo.zRev < deficit z (back z p)) :
    stepReverse z p = remarked z (markUnsure z (back z p)) := by
  obtain ⟨valid', geo, -⟩ := back_blocks z p
  have marks : ((back z p).ztr.geoValid && decide ((back z p).ztr.geo.zRev < deficit z (back z p))) = true := by
    rw [valid', geo, valid, Bool.true_and]
    exact decide_eq_true beyond
  unfold stepReverse
  dsimp only
  rw [show setCounter z (minus z (p.counter z) 1) p = back z p from rfl, marks, if_pos rfl, remarked]

theorem remarked_atOnce (z : Zone) (p : Part) : (remarked z p).ztr.atOnce = p.ztr.atOnce := by cases z <;> rfl

theorem After.remarked {p q : Part} (h : After p q) (z : Zone) : After (remarked z p) (remarked z q) :=
  h.map (fun _ _ _ _ _ _ => by cases z <;> rfl) fun _ => by cases z <;> rfl

theorem retireSlot_remarked (i : SlotNo) (c : Retire) (z : Zone) (p : Part) :
    retireSlot i c (remarked z p) = remarked z (retireSlot i c p) := by
  have slot : (remarked z p).slot i = p.slot i := by cases z <;> rfl
  unfold retireSlot
  dsimp only
  rw [slot]
  split
  · rfl
  · cases c <;> cases z <;> rfl

/-- A reverse step beyond Z_rev, from what its marking comes to. -/
theorem reverse_completes {z : LinearZone} {s : State} {e m : Part} (running : Running s.part) (valid : s.part.ztr.geoValid = true)
    (beyond : s.part.ztr.geo.zRev < deficit z.zone (back z.zone s.part)) (after : After m (markUnsure z.zone (back z.zone s.part)))
    (at_once : m.ztr.atOnce = []) (shape : e = remarked z.zone m) : Completes (.zoneReverseStep z) s e := by
  rw [shape]
  exact completes_of_after rfl running (by rw [stepReverse_beyond valid beyond]; exact after.remarked z.zone)
    ((remarked_atOnce _ _).trans at_once)

/-! Records marked (R35). -/

theorem markUnsure_lone {z : Zone} {t : Nat} {p : Part} (lone : zoneTags z p = [t]) : markUnsure z p = (markRecord (false, p) t).2 := by
  rw [markUnsure, lone]
  rfl

theorem markRecord_strip {x : Strip} {p : Part} (h : HoldsStrip x p) :
    markRecord (false, p) x.tag = rejectStrip .ztr .unsure { x with unsure := true } p := by
  rw [markRecord, if_neg Bool.false_ne_true, lookup_strip .ztr h]

theorem markRecord_piece {y : Piece} {p : Part} (h : HoldsPiece y p) (assigned : y.state ≠ .assigned) :
    markRecord (false, p) y.tag = (false, writePiece { y with unsure := true } p) := by
  rw [markRecord, if_neg Bool.false_ne_true, lookup_piece .ztr h]
  dsimp only
  rw [if_neg assigned]

theorem markRecord_assigned {y : Piece} {p : Part} (h : HoldsPiece y p) (assigned : y.state = .assigned) :
    markRecord (false, p) y.tag =
      (false, writePiece { y with unsure := true, state := .unsorted, bay := none, serial := none } (cancelKick y p)) := by
  rw [markRecord, if_neg Bool.false_ne_true, lookup_piece .ztr h]
  dsimp only
  rw [if_pos assigned]

theorem rejectStrip_kept {s : Strip} {p : Part} (r : Reader) (cause : RejectCause) (kept : s.state = .rejecting ∨ s.state = .cutting) :
    rejectStrip r cause s p = (false, writeStrip s p) := if_pos kept

/-- The strip rejected for UNSURE. -/
def rejectedUnsure (x : Strip) (p : Part) : Part :=
  writeStrip { x with unsure := true, state := .rejecting, reject := some .unsure } (cancel (.deadline x.tag) (leavePlanner x.tag p))

theorem markRecord_early {x : Strip} {p : Part} (h : HoldsStrip x p) (rejecting : x.state ≠ .rejecting) (cutting : x.state ≠ .cutting)
    (planned : x.state ≠ .planned) : markRecord (false, p) x.tag = (false, rejectedUnsure x p) := by
  rw [markRecord_strip h, rejectStrip_early .ztr .unsure (by exact rejecting) (by exact cutting) (by exact planned)]
  rfl

theorem markRecord_kept {x : Strip} {p : Part} (h : HoldsStrip x p) (kept : x.state = .rejecting ∨ x.state = .cutting) :
    markRecord (false, p) x.tag = (false, writeStrip { x with unsure := true } p) := by
  rw [markRecord_strip h, rejectStrip_kept .ztr .unsure (by exact kept)]

/-- A PLANNED strip marked UNSURE: its only piece ends. -/
theorem markRecord_planned {x : Strip} {y : Piece} {pl : PlanEntry} {value : Nat} {p : Part} (h : HoldsStrip x p) (planned : x.state = .planned)
    (plan : x.plan = some ⟨value, [pl]⟩) (tag : pl.tag = some y.tag) (piece : HoldsPiece y p) (state : y.state = .planned)
    (free : y.reserved = none) (other : slotOf y.tag ≠ slotOf x.tag) :
    After (retireSlot (slotOf y.tag) (.piece .discarded) (rejectedUnsure x p)) (markRecord (false, p) x.tag).2 := by
  have piece' : HoldsPiece y (rejectedUnsure x p) :=
    holdsPiece_setSlot (p := cancel (.deadline x.tag) (leavePlanner x.tag p)) piece (Ne.symm other)
  have marked : markRecord (false, p) x.tag = (false, endPiece y .discarded (rejectedUnsure x p)) := by
    rw [markRecord_strip h, rejectStrip, if_neg (by rw [planned]; decide)]
    dsimp only
    rw [if_pos planned]
    exact endPieces_single .ztr .discarded plan tag piece' (by rw [state]; decide)
  have ended := endPiece_planned .discarded piece' state
  rw [free] at ended
  rw [marked]
  exact ended

/-- The cut list's strip is marked behind the queue's piece. -/
theorem markUnsure_cutting {x : Strip} {y : Piece} {p : Part} (tags : zoneTags .C p = [y.tag, x.tag]) (piece : HoldsPiece y p)
    (belt : y.state = .beltC) (strip : HoldsStrip x p) (cutting : x.state = .cutting) (other : slotOf y.tag ≠ slotOf x.tag) :
    markUnsure .C p = writeStrip { x with unsure := true } (writePiece { y with unsure := true } p) := by
  have strip' : HoldsStrip x (writePiece { y with unsure := true } p) := holdsStrip_setSlot strip other
  rw [markUnsure, tags, List.foldl_cons, markRecord_piece piece (by rw [belt]; decide), List.foldl_cons, markRecord_kept strip' (.inr cutting),
    List.foldl_nil]

/-! Records written beside a mark. -/

theorem rejectedUnsure_remarked (x : Strip) (z : Zone) (p : Part) : rejectedUnsure x (remarked z p) = remarked z (rejectedUnsure x p) := by
  cases z <;> rfl

theorem writeStrip_remarked (x : Strip) (z : Zone) (p : Part) : writeStrip x (remarked z p) = remarked z (writeStrip x p) := by
  cases z <;> rfl

theorem writePiece_remarked (y : Piece) (z : Zone) (p : Part) : writePiece y (remarked z p) = remarked z (writePiece y p) := by
  cases z <;> rfl

theorem kickCancelled_remarked (t area : Nat) (b : BayNo) (u : Bundle) (r : Order) (z : Zone) (p : Part) :
    kickCancelled t area b u r (remarked z p) = remarked z (kickCancelled t area b u r p) := by
  cases z <;> rfl

theorem kickCancelled_atOnce {t area : Nat} {b : BayNo} {u : Bundle} {r : Order} {p : Part} (h : p.ztr.atOnce = []) :
    (kickCancelled t area b u r p).ztr.atOnce = [] := cancel_atOnce (.kick b t) (p := p.setKickQueue b _) h

/-- A kick cancelled beside a zone's record. -/
theorem kickCancelled_setZone (t area : Nat) (b : BayNo) (u : Bundle) (r : Order) (z : Zone) (x : ZoneRec) (p : Part) :
    kickCancelled t area b u r (p.setZone z x) =
      (((cancel (.kick b t) ((p.setZone z x).setKickQueue b ((p.kickQueue b).filter fun k => k.tag != t))).setBay b { p.bay b with
        bundle := some { u with transit := u.transit - area } }).setOrder u.slot (some { r with
          transitArea := r.transitArea - area })) := by cases z <;> rfl

theorem zoneTags_lone {z : Zone} {e : Entry} {t : Nat} {p : Part} (other : z ≠ .C) (queue : p.queue z = [e]) (tag : e.tag = some t) :
    zoneTags z p = [t] := by
  rw [zoneTags_queue other, queue, List.filterMap_cons, tag, List.filterMap_nil]

/-- Clause of O13: a zone's only strip marked, in a state of its own. -/
theorem strip_marked {z : LinearZone} {x : Strip} {e : Entry} {s : State} (running : Running s.part) (settled : Settled s.part)
    (zone : z.zone ≠ .C) (valid : s.part.ztr.geoValid = true) (beyond : s.part.ztr.geo.zRev < deficit z.zone (back z.zone s.part))
    (queue : s.part.queue z.zone = [e]) (tag : e.tag = some x.tag) (strip : HoldsStrip x s.part) :
    (x.state ≠ .rejecting → x.state ≠ .cutting → x.state ≠ .planned →
      Completes (.zoneReverseStep z) s (rejectedUnsure x (remarked z.zone (back z.zone s.part))))
    ∧ (x.state = .rejecting →
      Completes (.zoneReverseStep z) s (writeStrip { x with unsure := true } (remarked z.zone (back z.zone s.part))))
    ∧ (∀ (y : Piece) (pl : PlanEntry) (value : Nat), x.state = .planned → x.plan = some ⟨value, [pl]⟩ → pl.tag = some y.tag →
      HoldsPiece y s.part → y.state = .planned → y.reserved = none → slotOf y.tag ≠ slotOf x.tag →
      Completes (.zoneReverseStep z) s
        (retireSlot (slotOf y.tag) (.piece .discarded) (rejectedUnsure x (remarked z.zone (back z.zone s.part))))) := by
  obtain ⟨-, -, rst, same, -, once⟩ := back_blocks z.zone s.part
  have marks := markUnsure_lone (zoneTags_lone zone (same.trans queue) tag)
  have strip_b : HoldsStrip x (back z.zone s.part) := strip.congr rst
  have at_once : (rejectedUnsure x (back z.zone s.part)).ztr.atOnce = [] := cancel_atOnce (.deadline x.tag) (once.trans settled.1)
  refine ⟨fun rejecting cutting planned => ?_, fun rejecting => ?_, fun y pl value planned plan named piece state free other => ?_⟩
  · rw [markRecord_early strip_b rejecting cutting planned] at marks
    exact reverse_completes running valid beyond (.of_eq marks.symm) at_once (rejectedUnsure_remarked _ _ _)
  · rw [markRecord_kept strip_b (.inl rejecting)] at marks
    exact reverse_completes running valid beyond (.of_eq marks.symm) (once.trans settled.1) (writeStrip_remarked _ _ _)
  · refine reverse_completes running valid beyond (by
      rw [marks]
      exact markRecord_planned strip_b planned plan named (piece.congr rst) state free other) ((retireSlot_atOnce _ _ _).trans at_once) ?_
    rw [rejectedUnsure_remarked, retireSlot_remarked]

/-- Clause of O13: a zone's only piece marked. -/
theorem piece_marked {z : LinearZone} {y : Piece} {e : Entry} {s : State} (running : Running s.part) (settled : Settled s.part)
    (zone : z.zone ≠ .C) (valid : s.part.ztr.geoValid = true) (beyond : s.part.ztr.geo.zRev < deficit z.zone (back z.zone s.part)) (queue : s.part.queue z.zone = [e])
    (tag : e.tag = some y.tag) (piece : HoldsPiece y s.part) :
    (y.state ≠ .assigned → Completes (.zoneReverseStep z) s (writePiece { y with unsure := true } (remarked z.zone (back z.zone s.part))))
    ∧ (∀ (b : BayNo) (u : Bundle) (r : Order), y.state = .assigned → y.bay = some b → (s.part.bay b).state = .opened →
      (s.part.bay b).bundle = some u → s.part.order u.slot = some r → r.shortLength ≤ y.len →
      Completes (.zoneReverseStep z) s (writePiece { y with unsure := true, state := .unsorted, bay := none, serial := none }
        (kickCancelled y.tag y.area b u r (remarked z.zone (back z.zone s.part))))) := by
  obtain ⟨-, -, rst, same, -, once⟩ := back_blocks z.zone s.part
  obtain ⟨bays, orders⟩ := back_bundles z.zone s.part
  have marks := markUnsure_lone (zoneTags_lone zone (same.trans queue) tag)
  have piece_b : HoldsPiece y (back z.zone s.part) := piece.congr rst
  refine ⟨fun moves => ?_, fun b u r assigned bay opened bundle order long => ?_⟩
  · rw [markRecord_piece piece_b moves] at marks
    exact reverse_completes running valid beyond (.of_eq marks.symm) (once.trans settled.1) (writePiece_remarked _ _ _)
  · rw [markRecord_assigned piece_b assigned, cancelKick_opened bay (by rw [bays]; exact opened) (by rw [bays]; exact bundle)
      (by rw [orders]; exact order) long] at marks
    refine reverse_completes running valid beyond (.of_eq marks.symm) (kickCancelled_atOnce (area := y.area) (u := u) (r := r) (once.trans settled.1)) ?_
    rw [kickCancelled_remarked]
    exact writePiece_remarked _ _ _

/-- Settles O13. -/
theorem zoneStepsCount : Obligations.ZoneStepsCount := by
  refine ⟨fun z s running settled => ?_, fun z s running settled => ?_, fun x e s running settled => ?_, fun e s running settled => ?_⟩
  · intro p n taken
    exact completes_of_eq rfl running (by cases z <;> rfl) (by cases z <;> exact settled.1)
  · intro p q within
    obtain ⟨-, -, -, -, -, once⟩ := back_blocks z.zone s.part
    exact completes_of_eq rfl running (stepReverse_within within) (once.trans settled.1)
  · intro p n valid beyond queue tag strip state
    have marked := (strip_marked (z := .A) running settled (by decide) valid beyond queue tag strip).1
      (by rcases state with h | h <;> rw [h] <;> decide) (by rcases state with h | h <;> rw [h] <;> decide)
      (by rcases state with h | h <;> rw [h] <;> decide)
    rw [remarked_back] at marked
    exact marked
  · intro p n q beyond valid
    refine ⟨fun x past queue tag strip => ?_, fun x y lead past queue tag piece belt cuts strip cutting other => ?_,
      fun y past queue tag piece => ?_⟩
    · intro rejected
      obtain ⟨early, kept, planned⟩ := strip_marked (z := .B) running settled (by decide) valid past queue tag strip
      rw [remarked_back] at early kept planned
      refine ⟨fun states => early ?_ ?_ ?_, kept, planned⟩
      all_goals
        simp only [List.mem_cons, List.not_mem_nil, or_false] at states
        rcases states with h | h | h | h <;> rw [h] <;> decide
    · obtain ⟨-, -, rst, same, cutList, once⟩ := back_blocks .C s.part
      have tags : zoneTags .C (back .C s.part) = [y.tag, x.tag] := by
        rw [zoneTags, same, queue, cutList, cuts, List.filterMap_cons, tag]
        rfl
      have marks := markUnsure_cutting tags (piece.congr rst) belt (strip.congr rst) cutting other
      refine reverse_completes (z := .C) running valid past (.of_eq marks.symm) (once.trans settled.1) ?_
      rw [← writeStrip_remarked, ← writePiece_remarked]
      exact congrArg (fun m => writeStrip _ (writePiece _ m)) (remarked_back .C s.part).symm
    · obtain ⟨belt, assigned⟩ := piece_marked (z := .E) running settled (by decide) valid past queue tag piece
      rw [remarked_back] at belt assigned
      refine ⟨fun states => belt ?_, fun b u r state bay opened bundle order long => ?_⟩
      · rcases states with h | h <;> rw [h] <;> decide
      · have completes := assigned b u r state bay opened bundle order long
        rw [kickCancelled_setZone] at completes
        exact completes

end Sys2Proof.Machine
